-- ==== Sys2Proof/Word.lean ====
section
/-! DEFINITION. The widths of the machine: bytes, halfwords and words (00_scope.md R6). -/

namespace Sys2Proof

/-- A byte: an unsigned 8-bit value (R6). -/
abbrev Byte := BitVec 8

/-- A halfword: 16 bits, the width of the CRC (R5, R6). -/
abbrev Half := BitVec 16

/-- A word: 32 bits, the width of every host register access and of a command word (R5, R71). -/
abbrev Word := BitVec 32

end Sys2Proof
end

