-- ==== Sys2Proof/Syntax.lean ====
section
/-! DEFINITION. The block commands (one constructor per row of spec/opcode_table.json), the names of the host
registers, and the lines of a host program with its pseudo-instructions (30_encoding.md R79 to R85). -/

namespace Sys2Proof

/-- The nine block commands of 30_encoding.md R74. -/
inductive Instr where
  /-- `CLEAR` (40_frame_buffer.md R101). -/
  | clear
  /-- `PUSH b` (40_frame_buffer.md R102). -/
  | push (b : Byte)
  /-- `CRC.INIT` (41_crc_generator.md R113). -/
  | crcInit
  /-- `CRC.BYTE b` (41_crc_generator.md R114). -/
  | crcByte (b : Byte)
  /-- `CRC.BUF` (41_crc_generator.md R115). -/
  | crcBuf
  /-- `APPEND` (41_crc_generator.md R116). -/
  | append
  /-- `HDRLEN` (42_frame_validator.md R131). -/
  | hdrlen
  /-- `VALIDATE` (42_frame_validator.md R133). -/
  | validate
  /-- `DECODE` (43_decoder.md R155). -/
  | decode
  deriving DecidableEq, Repr

/-- The host registers of 10_state.md R36, by name. -/
inductive RegName where
  | cmd
  | ctrl
  | status
  | len
  | crc
  | check
  | frameinfo
  | value
  | strinfo
  | str0
  | str1
  | cap
  /-- `BUFW[i]`, the buffer window (R47). -/
  | bufw (i : Nat)
  deriving DecidableEq, Repr

/-- One line of a host program (R79): a block command (R80), a host access (R81) or a pseudo-instruction
(R82 to R85). Operands are the numbers as written; `Line.wellFormed` says which the assembler takes. -/
inductive Line where
  | clear
  | push (b : Nat)
  | crcInit
  | crcByte (b : Nat)
  | crcBuf
  | append
  | hdrlen
  | validate
  | decode
  /-- `.word w`: any 32-bit value, legal or not (R80). -/
  | word (w : Nat)
  /-- `WR CTRL, v` (R81). -/
  | wrCtrl (v : Nat)
  /-- `RD name`, `RD BUFW[i]` (R81). -/
  | rd (r : RegName)
  /-- `PUSHB b0, …` (R82). -/
  | pushB (bs : List Nat)
  /-- `RXFRAME b0, …` (R83). -/
  | rxFrame (bs : List Nat)
  /-- `LOADHEX "t"` (R84). -/
  | loadHex (t : List Char)
  /-- `BUILD "t"` (R85). -/
  | build (t : List Char)
  deriving DecidableEq, Repr

end Sys2Proof
end

