-- ==== Sys2Proof/Decode.lean ====
section
/-! DEFINITION. The command word (30_encoding.md): its fields (R71), the opcode map (R74), the decoder and the
encoder. The decoder is total on 32-bit words: every word is exactly one command or is rejected by name (R75). -/

namespace Sys2Proof

/-- `OPC` = `w[7:0]` (R71). -/
def opcField (w : Word) : Byte := w.extractLsb' 0 8

/-- `IMM8` = `w[15:8]` (R71, R72). -/
def immField (w : Word) : Byte := w.extractLsb' 8 8

/-- `RSV` = `w[31:16]` (R71). -/
def rsvField (w : Word) : Half := w.extractLsb' 16 16

/-- Why a word spells no block command (R76's cases). -/
inductive IllegalWord where
  /-- `RSV` ≠ 0, with any `OPC`. -/
  | reservedBitsSet
  /-- `OPC` = 0x00, or `OPC` in 0x0A to 0xFF. -/
  | reservedOpcode
  /-- `IMM8` ≠ 0 with a class Z `OPC`. -/
  | operandOnClassZ
  deriving DecidableEq, Repr

/-- A row of the opcode map (R74): the word's match and mask, and the command it spells, given `IMM8`. -/
structure OpcodeRow where
  pattern : Word
  mask : Word
  build : Byte → Instr

/-- The opcode map of R74, in the table's order. -/
def opcodeTable : List OpcodeRow :=
  [ { pattern := 0x00000001#32, mask := 0xFFFFFFFF#32, build := fun _ => .clear },
    { pattern := 0x00000002#32, mask := 0xFFFF00FF#32, build := fun b => .push b },
    { pattern := 0x00000003#32, mask := 0xFFFFFFFF#32, build := fun _ => .crcInit },
    { pattern := 0x00000004#32, mask := 0xFFFF00FF#32, build := fun b => .crcByte b },
    { pattern := 0x00000005#32, mask := 0xFFFFFFFF#32, build := fun _ => .crcBuf },
    { pattern := 0x00000006#32, mask := 0xFFFFFFFF#32, build := fun _ => .append },
    { pattern := 0x00000007#32, mask := 0xFFFFFFFF#32, build := fun _ => .hdrlen },
    { pattern := 0x00000008#32, mask := 0xFFFFFFFF#32, build := fun _ => .validate },
    { pattern := 0x00000009#32, mask := 0xFFFFFFFF#32, build := fun _ => .decode } ]

/-- `w` matches a row: its bits under the row's mask are the row's match (R74). -/
def OpcodeRow.fits (r : OpcodeRow) (w : Word) : Bool := w &&& r.mask == r.pattern

/-- Which of R76's cases a word that fits no row falls under. -/
def illegalReason (w : Word) : IllegalWord :=
  if rsvField w ≠ 0 then .reservedBitsSet
  else if opcField w = 0 ∨ 0x0A#8 ≤ opcField w then .reservedOpcode
  else .operandOnClassZ

/-- The command decoder (R70, R75): the command of the row the word fits, or the reason it fits none. -/
def decode (w : Word) : Except IllegalWord Instr :=
  match opcodeTable.find? fun r => r.fits w with
  | some r => .ok (r.build (immField w))
  | none => .error (illegalReason w)

/-- The word with this `OPC` and `IMM8` and `RSV` = 0 (R71). -/
def commandWord (opc imm : Byte) : Word := opc.setWidth 32 ||| (imm.setWidth 32 <<< 8)

/-- The word of a command (R80). -/
def encode : Instr → Word
  | .clear => commandWord 0x01 0
  | .push b => commandWord 0x02 b
  | .crcInit => commandWord 0x03 0
  | .crcByte b => commandWord 0x04 b
  | .crcBuf => commandWord 0x05 0
  | .append => commandWord 0x06 0
  | .hdrlen => commandWord 0x07 0
  | .validate => commandWord 0x08 0
  | .decode => commandWord 0x09 0

/-- The command word of the low `nbits` bits of `w`, the others 0; `none` where a bit above bit 31 is set, since
every command is one 32-bit word (R71, log 20). -/
def tableWord (nbits w : Nat) : Option Word :=
  if w % 2 ^ nbits < 2 ^ 32 then some (BitVec.ofNat 32 (w % 2 ^ nbits)) else none

/-- The host's question: the instruction the decoder reads from the word `w` of `nbits` bits. -/
def decodeTableWord (nbits w : Nat) : Option Instr :=
  match tableWord nbits w with
  | some word => (decode word).toOption
  | none => none

end Sys2Proof
end

