-- ==== Sys2Proof/Config.lean ====
section
/-! DEFINITION. What an implementation fixes (00_scope.md R5): the buffer capacity, the base address and the
size of the platform's decode range. A Lean model "takes them as arguments" (R5): they stand in the state as
`params`, and no step changes them (log 1). The spec leaves no value free (10_state.md R49), so there is no
opaque constant here. -/

namespace Sys2Proof

/-- The implementation parameters of R5 and R58. -/
structure Params where
  /-- `BUF_CAP`: the frame buffer's capacity in bytes (R5). -/
  bufCap : Nat
  /-- `BASE`: the host address of register offset 0x000; `OPEN` (R5, R58). -/
  base : Nat
  /-- The bytes of host address space the platform gives the block, from `BASE`; the platform's choice (R58). -/
  decodeRange : Nat
  deriving DecidableEq, Repr

/-- What R5 and R58 require of the parameters: 8 ≤ `BUF_CAP` ≤ 65535, and a decode range that covers at least
0x400 + 4·`BUF_CAP` bytes. -/
abbrev Params.Ok (p : Params) : Prop :=
  8 ≤ p.bufCap ∧ p.bufCap ≤ 65535 ∧ 0x400 + 4 * p.bufCap ≤ p.decodeRange

/-- The parameters of `State.reset`: the spec's default `BUF_CAP` 260 (R5). DESIGN CHOICE (log 1): `BASE` 0 and
a decode range of 0x1000 bytes, which the spec leaves to the platform. -/
def Params.standard : Params := { bufCap := 260, base := 0, decodeRange := 0x1000 }

end Sys2Proof
end

