-- ==== Sys2Proof/Machine/State.lean ====
section
/-! DEFINITION. The machine's state: the record of 10_state.md R22, the implementation parameters of
00_scope.md R5, and the host's side of the interface (log 2, log 3). Plain data throughout. -/

namespace Sys2Proof.Machine

/-- The error codes of R27 that are ever written (codes 5 to 15 are reserved, log 7). -/
inductive ErrCode where
  | none
  | shortFrame
  | checksumMismatch
  | illegalCommand
  | bufferOverflow
  deriving DecidableEq, Repr

/-- The checksum verdicts of R28 that are ever written (code 3 is reserved, log 7): `NOT_CHECKED`, `MATCH` and
`MISMATCH`. -/
inductive Verdict where
  | notChecked
  | matched
  | mismatched
  deriving DecidableEq, Repr

/-- The DecodedValue variants of R29 that are ever written (codes 5 to 7 are reserved, log 7). -/
inductive Tag where
  | absent
  | uint16
  | uint32
  | ascii
  | raw
  deriving DecidableEq, Repr

/-- The frame buffer, the block's only memory (20_memory.md R50): the bytes at index 0 to `LEN` − 1, in frame
order (R51). "The buffer has no bytes beyond `LEN`, so a model must not give them values" (10_state.md R23): the
list holds exactly the bytes that exist (log 8). -/
abbrev Memory := List Byte

/-- What reaches the block from outside: the two accesses of 00_scope.md R10, by host address and width in
bytes, and the reset event of 70_reset_and_hazards.md R190. -/
inductive HostEvent where
  /-- `MemRead` of `bytes` bytes at host address `addr`. -/
  | read (addr bytes : Nat)
  /-- `MemWrite` of `bytes` bytes at host address `addr`; `v` is the word written. -/
  | write (addr bytes : Nat) (v : Word)
  /-- The reset event. -/
  | reset
  deriving DecidableEq, Repr

/-- The machine's state. The fields from `buf` to `str` are the block's, all of R22's record; `params` are the
parameters of R5, which no step changes (log 1); `pending` and `returned` are the model's own, the host's side of
the interface (log 2, log 3). -/
structure State where
  /-- The implementation parameters (R5). -/
  params : Params
  /-- `BUF` (R23); `LEN` is its length (R24). -/
  buf : Memory
  /-- `CRC`, the accumulator (R25). -/
  crc : Half
  /-- `CTRL.STRICT` (R26). -/
  strict : Bool
  /-- `STATUS.ERR` (R27). -/
  err : ErrCode
  /-- `STATUS.VERDICT` (R28). -/
  verdict : Verdict
  /-- `STATUS.TAG` (R29). -/
  tag : Tag
  /-- `STATUS.HDRV` (R30). -/
  hdrv : Bool
  /-- `BCNT` (R31). -/
  bcnt : Byte
  /-- `EXPLEN` (R31). -/
  explen : BitVec 9
  /-- `CALC` (R32). -/
  calcCrc : Half
  /-- `RXCRC` (R32). -/
  rxCrc : Half
  /-- `VALUE` (R33). -/
  value : Word
  /-- `STRLEN` (R33). -/
  strlen : BitVec 4
  /-- `STR[0]` to `STR[7]` (R33). -/
  str : Vector Byte 8
  /-- The host's accesses and reset events not yet performed, oldest first (R60, log 2). -/
  pending : List HostEvent
  /-- The words `MemRead` has returned to the host, oldest first (R10, log 3). -/
  returned : List Word
  deriving DecidableEq, Repr

/-- The block with parameters `p` right after reset: every field at the value of R49, and nothing on the host's
side. -/
def State.resetWith (p : Params) : State :=
  { params := p
    buf := []
    crc := 0xFFFF#16
    strict := false
    err := .none
    verdict := .notChecked
    tag := .absent
    hdrv := false
    bcnt := 0
    explen := 0
    calcCrc := 0
    rxCrc := 0
    value := 0
    strlen := 0
    str := Vector.replicate 8 0
    pending := []
    returned := [] }

/-- The machine right after reset (R49, R190), with the default `BUF_CAP` of R5 (log 1). -/
def State.reset : State := State.resetWith Params.standard

/-- The canonical form of the frame buffer, for capacity `cap`: 0 ≤ `LEN` ≤ `BUF_CAP` (R24). A list of bytes has
no unlisted address and no second form, so this is all there is to hold. -/
def Memory.wf (cap : Nat) (m : Memory) : Bool := decide (m.length ≤ cap)

/-- The buffer as (index, byte) cells, indices rising from 0: the same memory in the host interface's form. -/
def Memory.cells (m : Memory) : List Host.Cell := m.mapIdx fun i b => (i, b)

/-- Why the machine stops. -/
inductive Fault where
  /-- Raised by `admitted` for a host access that is not 32 bits wide or not at an offset that is a multiple of 4:
  "A model gives it no step: the host is stuck at that access" (20_memory.md R52). Safe: the model stops where
  hardware might go on (log 4). -/
  | accessNotAdmitted
  deriving DecidableEq, Repr

/-- What the model gives no meaning to. -/
inductive Refusal where
  /-- Raised by an arm of `exec` for an instruction that has no meaning yet; no arm does. Safe. -/
  | notModelled (mnemonic : String)
  /-- Raised by `admitted` for an address outside the decode range the platform gives the block (20_memory.md R58):
  another unit's, of which the spec says nothing. Safe: no behaviour of that unit is assumed (log 5). -/
  | outsideBlock
  deriving DecidableEq, Repr

end Sys2Proof.Machine
end

