-- ==== Sys2Proof/Machine/Ops.lean ====
section
/-! DEFINITION. The named operations over the registers and the frame buffer that the commands share: recording an
error (00_scope.md R11), the result groups (10_state.md R48), reading and growing `BUF` (20_memory.md R54), and the
reset event (70_reset_and_hazards.md R190). No error traps, so `State.fail` stands where another machine takes an
exception, and nothing returns from one (60_exceptions.md R173, R174). -/

namespace Sys2Proof.Machine

/-! ## Recording the outcome of a command (R11, R170) -/

/-- `STATUS.ERR <- e`. -/
def State.setErr (s : State) (e : ErrCode) : State := { s with err := e }

/-- The write that opens every command: `STATUS.ERR <- NONE` (R11). -/
def State.startCommand (s : State) : State := s.setErr .none

/-- `fail e`: record `e`; the command ends here, and its earlier writes stand (R11, R173). -/
def State.fail (s : State) (e : ErrCode) : State := s.setErr e

/-- `warn e`: record `e`; the command goes on (R11). -/
def State.warn (s : State) (e : ErrCode) : State := s.setErr e

/-! ## The registers -/

/-- `CRC <- c`. -/
def State.setCrc (s : State) (c : Half) : State := { s with crc := c }

/-- `CTRL.STRICT <- b`. -/
def State.setStrict (s : State) (b : Bool) : State := { s with strict := b }

/-- `BCNT <- b; EXPLEN <- e; HDRV <- 1`. -/
def State.setHeader (s : State) (b : Byte) (e : BitVec 9) : State :=
  { s with bcnt := b, explen := e, hdrv := true }

/-- `CALC <- c; RXCRC <- r; VERDICT <- v`. -/
def State.setCheck (s : State) (c r : Half) (v : Verdict) : State :=
  { s with calcCrc := c, rxCrc := r, verdict := v }

/-- `TAG <- t`. -/
def State.setTag (s : State) (t : Tag) : State := { s with tag := t }

/-- `VALUE <- v`. -/
def State.setValue (s : State) (v : Word) : State := { s with value := v }

/-- `STRLEN <- len(t)`; `STR[i] <- t[i]` for `i` below `len(t)`, the others as they were (43_decoder.md R155). -/
def State.setString (s : State) (t : List Byte) : State :=
  { s with strlen := BitVec.ofNat 4 t.length
           str := Vector.ofFn fun i => if h : i.val < t.length then t[i.val] else s.str[i] }

/-! ## The result groups (R48) -/

/-- `clear_header()` (R48). -/
def State.clearHeader (s : State) : State := { s with hdrv := false, bcnt := 0, explen := 0 }

/-- `clear_check()` (R48). -/
def State.clearCheck (s : State) : State := { s with verdict := .notChecked, calcCrc := 0, rxCrc := 0 }

/-- `clear_value()` (R48). -/
def State.clearValue (s : State) : State :=
  { s with tag := .absent, value := 0, strlen := 0, str := Vector.replicate 8 0 }

/-- `clear_header(); clear_check(); clear_value()`, which CLEAR, HDRLEN, VALIDATE and DECODE begin with. -/
def State.clearResults (s : State) : State := s.clearHeader.clearCheck.clearValue

/-! ## The frame buffer (R23, R54) -/

/-- `LEN` = `len(BUF)` (R24). -/
def State.len (s : State) : Nat := s.buf.length

/-- `BUF[i]`, where it exists (R8: "defined only for 0 ≤ i < len(s)"). -/
def Memory.read? (m : Memory) (i : Nat) : Option Byte := m[i]?

/-- `s[i]` of a byte sequence (R8). Every rule guards its reads by a length test (R54), so the 0 past the end is
never what a command reads (log 9). -/
def byteAt (m : List Byte) (i : Nat) : Byte := m.getD i 0

/-- The slice `s[a : b]`: bytes `a` to `b` − 1 (R8). -/
def slice (m : List Byte) (a b : Nat) : List Byte := (m.take b).drop a

/-- `BUF <- BUF ++ bs`: the bytes land at index `LEN` and up, and no earlier byte changes (R23). -/
def State.appendBytes (s : State) (bs : List Byte) : State := { s with buf := s.buf ++ bs }

/-- `BUF <- []`. -/
def State.emptyBuffer (s : State) : State := { s with buf := [] }

/-! ## The host's side, and reset -/

/-- A `MemRead` gives the host the word `v` (R10, log 3). -/
def State.returnWord (s : State) (v : Word) : State := { s with returned := s.returned ++ [v] }

/-- The host's oldest event is taken; `rest` are those still to come (R60, log 2). -/
def State.takeEvent (s : State) (rest : List HostEvent) : State := { s with pending := rest }

/-- The reset event: every piece of the block's state to its value of R49 (R190). The parameters are constants
(R46), and the host's side is not the block's (log 14). -/
def State.resetBlock (s : State) : State :=
  { State.resetWith s.params with pending := s.pending, returned := s.returned }

end Sys2Proof.Machine
end

