-- ==== Sys2Proof/Machine/Operands.lean ====
section
/-! DEFINITION. The operand forms: the low and high byte of a checksum (41_crc_generator.md R111), the header of a
frame (42_frame_validator.md R130), the received checksum (10_state.md R32), and the big-endian integers of a
payload (43_decoder.md R150, R151). The one operand field of a command word, `IMM8`, is read by the decoder (R72). -/

namespace Sys2Proof.Machine

/-- `lo(c)` = `c[7:0]`, "lowByte = crc & 0xFF" (R111). -/
def lo (c : Half) : Byte := c.extractLsb' 0 8

/-- `hi(c)` = `c[15:8]`, "highByte = (crc >> 8) & 0xFF" (R111). -/
def hi (c : Half) : Byte := c.extractLsb' 8 8

/-- The halfword with low byte `l` and high byte `h`: `zext_16(l) | (zext_16(h) << 8)` (R32). -/
def halfOf (l h : Byte) : Half := l.setWidth 16 ||| (h.setWidth 16 <<< 8)

/-- `byte_count(s)` = `s[2]` (R130). -/
def byteCount (m : Memory) : Byte := byteAt m 2

/-- `expected_len` of a frame with byte count `b`: `zext_9(b)` + 5, which fits 9 bits (R130, R131). -/
def expectedLen (b : Byte) : BitVec 9 := b.setWidth 9 + 5#9

/-- The checksum a frame carries in its last two bytes, low byte first (R32, R51). -/
def receivedCrc (m : Memory) : Half := halfOf (byteAt m (m.length - 2)) (byteAt m (m.length - 1))

/-- `dec_u16(p)`: the big-endian unsigned 16-bit integer of a 2-byte sequence (R150). -/
def decU16 (p : List Byte) : Half := ((byteAt p 0).setWidth 16 <<< 8) ||| (byteAt p 1).setWidth 16

/-- `dec_u32(p)`: the big-endian unsigned 32-bit integer of a 4-byte sequence (R151). -/
def decU32 (p : List Byte) : Word :=
  ((byteAt p 0).setWidth 32 <<< 24) ||| ((byteAt p 1).setWidth 32 <<< 16) |||
    ((byteAt p 2).setWidth 32 <<< 8) ||| (byteAt p 3).setWidth 32

/-- `STR[k]` to `STR[k+3]` packed into a word, byte `k` in the low lane: `STR0` for `k` = 0, `STR1` for `k` = 4
(R45, R53). -/
def packLanes (b0 b1 b2 b3 : Byte) : Word :=
  b0.setWidth 32 ||| (b1.setWidth 32 <<< 8) ||| (b2.setWidth 32 <<< 16) ||| (b3.setWidth 32 <<< 24)

end Sys2Proof.Machine
end

