-- ==== Sys2Proof/Machine/Checksum.lean ====
section
/-! DEFINITION. The CRC-16/Modbus checksum (41_crc_generator.md R110, R111): reflected polynomial 0xA001, initial
value 0xFFFF, no final XOR. The bit loop is the spec's R110, which it marks as general knowledge (log 11). -/

namespace Sys2Proof.Machine

/-- The reflected polynomial (R5). -/
def crcPolynomial : Half := 0xA001#16

/-- The initial register value (R5). -/
def crcInitial : Half := 0xFFFF#16

/-- One turn of R110's loop: shift right, and XOR the polynomial where the bit shifted out is 1. -/
def crcShift (c : Half) : Half := if c.getLsbD 0 then (c >>> 1) ^^^ crcPolynomial else c >>> 1

/-- `n` turns of R110's loop. -/
def crcShifts : Nat → Half → Half
  | 0, c => c
  | n + 1, c => crcShifts n (crcShift c)

/-- `crc_step(c, b)`: the byte enters at the low end, then eight turns (R110). -/
def crcStep (c : Half) (b : Byte) : Half := crcShifts 8 (c ^^^ b.setWidth 16)

/-- `checksum(s)`: `crc_step` folded over `s` from 0xFFFF, with no final XOR (R111). -/
def checksum (s : List Byte) : Half := s.foldl crcStep crcInitial

end Sys2Proof.Machine
end

