-- ==== Sys2Proof/Machine/CrcGenerator.lean ====
section
/-! DEFINITION. The CRC generator's commands CRC.INIT, CRC.BYTE, CRC.BUF and APPEND (41_crc_generator.md). -/

namespace Sys2Proof.Machine

/-- `CRC.INIT` (R113). -/
def execCrcInit (s : State) : Host.Outcome State Fault Refusal :=
  .next (s.startCommand.setCrc crcInitial)

/-- `CRC.BYTE b` (R114). -/
def execCrcByte (b : Byte) (s : State) : Host.Outcome State Fault Refusal :=
  .next (s.startCommand.setCrc (crcStep s.crc b))

/-- `CRC.BUF` (R115). -/
def execCrcBuf (s : State) : Host.Outcome State Fault Refusal :=
  .next (s.startCommand.setCrc (checksum (slice s.buf 0 s.len)))

/-- The two bytes APPEND adds: the checksum of the buffer, low byte first (R116). -/
def checksumBytes (m : Memory) : List Byte := [lo (checksum m), hi (checksum m)]

/-- `APPEND` (R116): all or nothing. -/
def execAppend (s : State) : Host.Outcome State Fault Refusal :=
  if s.params.bufCap < s.len + 2 then .next (s.startCommand.fail .bufferOverflow)
  else
    .next ((s.startCommand.appendBytes (checksumBytes (slice s.buf 0 s.len))).setCrc
      (checksum (slice s.buf 0 s.len)))

end Sys2Proof.Machine
end

