-- ==== Sys2Proof/Machine/FrameBuffer.lean ====
section
/-! DEFINITION. The frame buffer commands CLEAR and PUSH (40_frame_buffer.md). -/

namespace Sys2Proof.Machine

/-- `CLEAR` (R101). -/
def execClear (s : State) : Host.Outcome State Fault Refusal :=
  .next (s.startCommand.emptyBuffer.setCrc crcInitial).clearResults

/-- `PUSH b` (R102). The capacity test is the rule's own, `LEN` = `BUF_CAP` (log 18). -/
def execPush (b : Byte) (s : State) : Host.Outcome State Fault Refusal :=
  if s.len = s.params.bufCap then .next (s.startCommand.fail .bufferOverflow)
  else .next (s.startCommand.appendBytes [b])

end Sys2Proof.Machine
end

