-- ==== Sys2Proof/Machine/Flags.lean ====
section
/-! DEFINITION. The status fields: the numeric codes of `ERR`, `VERDICT` and `TAG` (10_state.md R27 to R29), the
packing of `STATUS` (R39), the checksum verdict (42_frame_validator.md R132) and the variant a byte count selects
(43_decoder.md R155 to R157). -/

namespace Sys2Proof.Machine

/-- The code of `STATUS.ERR` (R27). -/
def ErrCode.code : ErrCode → BitVec 4
  | .none => 0
  | .shortFrame => 1
  | .checksumMismatch => 2
  | .illegalCommand => 3
  | .bufferOverflow => 4

/-- The code of `STATUS.VERDICT` (R28). -/
def Verdict.code : Verdict → BitVec 2
  | .notChecked => 0
  | .matched => 1
  | .mismatched => 2

/-- The code of `STATUS.TAG` (R29). -/
def Tag.code : Tag → BitVec 3
  | .absent => 0
  | .uint16 => 1
  | .uint32 => 2
  | .ascii => 3
  | .raw => 4

/-- `zext_32` of a one-bit field. -/
def flagWord (b : Bool) : Word := (BitVec.ofBool b).setWidth 32

/-- `STATUS`: `ERR` in [3:0], `VERDICT` in [5:4], `TAG` in [10:8], `HDRV` in [12], the rest 0 (R39). -/
def State.statusWord (s : State) : Word :=
  s.err.code.setWidth 32 ||| (s.verdict.code.setWidth 32 <<< 4) ||| (s.tag.code.setWidth 32 <<< 8) |||
    (flagWord s.hdrv <<< 12)

/-- Step 3 of R132: the last two bytes of the frame against `lo` and `hi` of the checksum computed over the rest. -/
def verdictOf (m : Memory) (c : Half) : Verdict :=
  if byteAt m (m.length - 2) = lo c ∧ byteAt m (m.length - 1) = hi c then .matched else .mismatched

/-- The variant that a byte count selects: 2, 4 and 8 bytes are integers and text, any other number is `RAW`
(R155, R156). It depends on nothing else (R157). -/
def tagOf (b : Byte) : Tag :=
  if b = 2 then .uint16 else if b = 4 then .uint32 else if b = 8 then .ascii else .raw

end Sys2Proof.Machine
end

