-- ==== Sys2Proof/Machine/FrameValidator.lean ====
section
/-! DEFINITION. The frame validator: HDRLEN, the shared check and VALIDATE (42_frame_validator.md). It looks at the
two length conditions and the checksum, and at nothing else (R134). -/

namespace Sys2Proof.Machine

/-- What `check_frame()` returns: `SHORT`, `MATCH` or `MISMATCH` (R132). -/
inductive FrameCheck where
  | short
  | agrees
  | differs
  deriving DecidableEq, Repr

/-- `BCNT <- BUF[2]; EXPLEN <- zext_9(BUF[2]) + 5; HDRV <- 1` (R131, R132 step 2). -/
def State.extractHeader (s : State) : State := s.setHeader (byteCount s.buf) (expectedLen (byteCount s.buf))

/-- Step 3 of R132: the checksum over `BUF[0 : n−2]`, the received checksum, and the verdict. Both are taken from
the actual length, not from `EXPLEN` (R135). -/
def State.compareChecksum (s : State) : State :=
  s.setCheck (checksum (slice s.buf 0 (s.len - 2))) (receivedCrc s.buf)
    (verdictOf s.buf (checksum (slice s.buf 0 (s.len - 2))))

/-- The result of step 3: `MATCH` or `MISMATCH`, as the verdict recorded (R132). -/
def FrameCheck.ofVerdict (v : Verdict) : FrameCheck := if v = .matched then .agrees else .differs

/-- `check_frame()` (R132): its result, and the state it leaves. -/
def checkFrame (s : State) : FrameCheck × State :=
  if s.len < 5 then (.short, s.clearResults)
  else if s.len < (expectedLen (byteCount s.buf)).toNat then (.short, s.clearResults.extractHeader)
  else
    (FrameCheck.ofVerdict s.clearResults.extractHeader.compareChecksum.verdict,
      s.clearResults.extractHeader.compareChecksum)

/-- `HDRLEN` (R131). -/
def execHdrlen (s : State) : Host.Outcome State Fault Refusal :=
  if s.len < 3 then .next (s.startCommand.clearResults.fail .shortFrame)
  else .next s.startCommand.clearResults.extractHeader

/-- `VALIDATE` (R133): a mismatch is recorded whatever `CTRL.STRICT` holds. -/
def execValidate (s : State) : Host.Outcome State Fault Refusal :=
  match checkFrame s.startCommand with
  | (.short, t) => .next (t.fail .shortFrame)
  | (.differs, t) => .next (t.warn .checksumMismatch)
  | (.agrees, t) => .next t

end Sys2Proof.Machine
end

