-- ==== Sys2Proof/Machine/PayloadDecoder.lean ====
section
/-! DEFINITION. The fixed-width decoder: the pure decoders and DECODE (43_decoder.md). Payload integers are
big-endian, whatever the order of the checksum bytes in the same frame (R159). -/

namespace Sys2Proof.Machine

/-- `ascii_filter(p)`: the bytes below 0x80 in their order, the others dropped with nothing in their place (R152,
log 10). -/
def asciiFilter (p : List Byte) : List Byte := p.filter fun b => b < 0x80#8

/-- The set `T` of trimmed bytes: NUL, space, CR and LF (R153). -/
def isTrimmed (b : Byte) : Bool := b = 0x00#8 ∨ b = 0x20#8 ∨ b = 0x0D#8 ∨ b = 0x0A#8

/-- `trim(s)`: the bytes of `T` removed from both ends, and from nowhere else (R153). -/
def trim (s : List Byte) : List Byte := ((s.dropWhile isTrimmed).reverse.dropWhile isTrimmed).reverse

/-- `ascii8_trim(p)` = `trim(ascii_filter(p))`: the filter comes first (R154). -/
def ascii8Trim (p : List Byte) : List Byte := trim (asciiFilter p)

/-- The payload `BUF[3 : 3 + BCNT]` of the current buffer (R155, R156). -/
def State.payload (s : State) : List Byte := slice s.buf 3 (3 + s.bcnt.toNat)

/-- The `case BCNT of` of R155, on a state whose header is extracted and whose value group is cleared. -/
def State.decodePayload (s : State) : State :=
  match tagOf s.bcnt with
  | .uint16 => (s.setTag .uint16).setValue ((decU16 s.payload).setWidth 32)
  | .uint32 => (s.setTag .uint32).setValue (decU32 s.payload)
  | .ascii => (s.setTag .ascii).setString (ascii8Trim s.payload)
  | .raw => s.setTag .raw
  | .absent => s

/-- `DECODE` (R155), with the mismatch policy of `CTRL.STRICT` (R158). -/
def execDecode (s : State) : Host.Outcome State Fault Refusal :=
  match checkFrame s.startCommand with
  | (.short, t) => .next (t.fail .shortFrame)
  | (.differs, t) =>
    if t.strict then .next (t.fail .checksumMismatch)
    else .next (t.warn .checksumMismatch).decodePayload
  | (.agrees, t) => .next t.decodePayload

end Sys2Proof.Machine
end

