-- ==== Sys2Proof/Machine/RegisterMap.lean ====
section
/-! DEFINITION. The host register map (10_state.md R36 to R47): which register stands at an offset, what each
register reads as, and what a write to `CTRL` does. No read changes any state (20_memory.md R56). -/

namespace Sys2Proof.Machine

/-- The offset of a register (R36). -/
def offsetOf : RegName → Nat
  | .cmd => 0x000
  | .ctrl => 0x004
  | .status => 0x008
  | .len => 0x00C
  | .crc => 0x010
  | .check => 0x014
  | .frameinfo => 0x018
  | .value => 0x01C
  | .strinfo => 0x020
  | .str0 => 0x024
  | .str1 => 0x028
  | .cap => 0x02C
  | .bufw i => 0x400 + 4 * i

/-- The registers below the buffer window, in the order of R36. -/
def namedRegisters : List RegName :=
  [.cmd, .ctrl, .status, .len, .crc, .check, .frameinfo, .value, .strinfo, .str0, .str1, .cap]

/-- The register at an offset, for capacity `cap`; `none` where the map has no register (R36, R55). -/
def registerAt (cap off : Nat) : Option RegName :=
  if 0x400 ≤ off then
    if off < 0x400 + 4 * cap ∧ off % 4 = 0 then some (.bufw ((off - 0x400) / 4)) else none
  else namedRegisters.find? fun r => offsetOf r == off

/-- A natural in bits [15:0], bits [31:16] reading 0 (R40, R46, log 19). -/
def halfWord (n : Nat) : Word := (BitVec.ofNat 16 n).setWidth 32

/-- `BUFW[i]`: `BUF[i]` in bits [7:0] where `i` < `LEN`, else 0 (R47). -/
def bufferWord (m : Memory) (i : Nat) : Word :=
  match m.read? i with
  | some b => b.setWidth 32
  | none => 0

/-- What a register reads as (R37 to R47). -/
def State.readRegister (s : State) : RegName → Word
  | .cmd => 0
  | .ctrl => flagWord s.strict
  | .status => s.statusWord
  | .len => halfWord s.len
  | .crc => s.crc.setWidth 32
  | .check => s.calcCrc.setWidth 32 ||| (s.rxCrc.setWidth 32 <<< 16)
  | .frameinfo => s.bcnt.setWidth 32 ||| (s.explen.setWidth 32 <<< 16)
  | .value => s.value
  | .strinfo => s.strlen.setWidth 32
  | .str0 => packLanes s.str[0] s.str[1] s.str[2] s.str[3]
  | .str1 => packLanes s.str[4] s.str[5] s.str[6] s.str[7]
  | .cap => halfWord s.params.bufCap
  | .bufw i => bufferWord s.buf i

/-- `MemRead(off, 4)`: the register at `off`, and 0 at an unmapped offset (R36, R55). -/
def State.readOffset (s : State) (off : Nat) : Word :=
  match registerAt s.params.bufCap off with
  | some r => s.readRegister r
  | none => 0

/-- A write to `CTRL`: `STRICT <- v[0]`, and nothing else changes (R38). -/
def State.writeCtrl (s : State) (v : Word) : State := s.setStrict (v.getLsbD 0)

end Sys2Proof.Machine
end

