-- ==== Sys2Proof/Machine/HostBus.lean ====
section
/-! DEFINITION. The host's accesses (00_scope.md R10, 20_memory.md): which are admitted (R52), what a read and a
write do (R55, R56), the issue of a command (30_encoding.md R70), the reset event (R190), and a sequence of
accesses performed in program order (R60). -/

namespace Sys2Proof.Machine

/-- A write to `CMD`: the command the word spells, or `STATUS.ERR <- ILLEGAL_COMMAND` and nothing else (R70, R76).
It completes before the write does (R57), so it is one step. -/
def issueCommand (w : Word) (s : State) : Host.Outcome State Fault Refusal :=
  match decode w with
  | .ok i => exec i s
  | .error _ => .next (s.fail .illegalCommand)

/-- `MemRead(off, 4)`: the host gets the word, and the block's state stays as it is (R56). -/
def hostRead (off : Nat) (s : State) : Host.Outcome State Fault Refusal :=
  .next (s.returnWord (s.readOffset off))

/-- `MemWrite(off, 4, v)`: `CMD` executes, `CTRL` is written, and a write to any other offset is ignored
(R36, R55, R56). -/
def hostWrite (off : Nat) (v : Word) (s : State) : Host.Outcome State Fault Refusal :=
  match registerAt s.params.bufCap off with
  | some .cmd => issueCommand v s
  | some .ctrl => .next (s.writeCtrl v)
  | _ => .next s

/-- The access at host address `addr`, `bytes` wide, given to `k` by its offset from `BASE` where it is admitted: it
must be inside the decode range (R58; else another unit's, log 5), and 32 bits wide at an offset that is a multiple
of 4 (R52; else stuck, log 4). -/
def admitted (p : Params) (addr bytes : Nat) (k : Nat → Host.Outcome State Fault Refusal) :
    Host.Outcome State Fault Refusal :=
  if addr < p.base ∨ p.base + p.decodeRange ≤ addr then .refused .outsideBlock
  else if bytes ≠ 4 ∨ (addr - p.base) % 4 ≠ 0 then .fault .accessNotAdmitted
  else k (addr - p.base)

/-- One event of the host's side performed on the block: an access, or reset (R10, R190). -/
def perform (e : HostEvent) (s : State) : Host.Outcome State Fault Refusal :=
  match e with
  | .read addr bytes => admitted s.params addr bytes fun off => hostRead off s
  | .write addr bytes v => admitted s.params addr bytes fun off => hostWrite off v s
  | .reset => .next s.resetBlock

/-- Events performed one at a time, in order, up to the first stop (R60, R201). -/
def performAll : List HostEvent → State → Host.Outcome State Fault Refusal
  | [], s => .next s
  | e :: es, s =>
    match perform e s with
    | .next t => performAll es t
    | .fault r => .fault r
    | .refused r => .refused r

/-- `MemRead(off, 4)` as the event of a 4-byte read at `BASE` + `off`, which does not wrap (R10, log 17). -/
def memRead (p : Params) (off : Nat) : HostEvent := .read (p.base + off) 4

/-- `MemWrite(off, 4, v)` as the event of a 4-byte write at `BASE` + `off` (R10, log 17). -/
def memWrite (p : Params) (off : Nat) (v : Word) : HostEvent := .write (p.base + off) 4 v

/-- The host's write of a command's word to `CMD` (R80). -/
def commandWrite (p : Params) (i : Instr) : HostEvent := memWrite p 0x000 (encode i)

end Sys2Proof.Machine
end

