-- ==== Sys2Proof/Machine/Step.lean ====
section
/-! DEFINITION. The step: the host's oldest event that has not been performed yet is performed (20_memory.md R60).
The unit has no step of its own (10_state.md R20): while the host is silent, all state holds its value
(60_exceptions.md R182, log 6). -/

namespace Sys2Proof.Machine

/-- One step of the machine. -/
def step (s : State) : Host.Outcome State Fault Refusal :=
  match s.pending with
  | [] => .next s
  | e :: rest => perform e (s.takeEvent rest)

/-- `s` with the host's write of the command word (the low `nbits` bits of `w`) to `CMD` as its oldest event: the
place where the next step finds its command (R21, R70, log 2, log 20). -/
def State.withFetchWord (s : State) (nbits w : Nat) : State :=
  s.takeEvent (memWrite s.params 0x000 (BitVec.ofNat 32 (w % 2 ^ nbits)) :: s.pending)

end Sys2Proof.Machine
end

