-- ==== Sys2Proof/WellFormed.lean ====
section
/-! DEFINITION. Which instructions and which lines are well formed. A block command's only operand is a byte and
every byte is legal (30_encoding.md R73), so the type of `Instr` already is its check. A LINE carries numbers and
text as written, and is checked here (R79, R80, R81, R84), for a block of capacity `cap`. -/

namespace Sys2Proof

/-- R73: class Z commands have no operand, and class B commands take every byte 0x00 to 0xFF. The operand's type
is the byte, so no term of `Instr` is ill formed. -/
def Instr.wellFormed : Instr → Bool
  | .clear => true
  | .push _ => true
  | .crcInit => true
  | .crcByte _ => true
  | .crcBuf => true
  | .append => true
  | .hdrlen => true
  | .validate => true
  | .decode => true

/-- R84: the accepted characters of hex text are `0`-`9`, `a`-`f` and `A`-`F`, and nothing else. -/
def isHexChar (c : Char) : Bool :=
  (decide ('0' ≤ c) && decide (c ≤ '9')) || (decide ('a' ≤ c) && decide (c ≤ 'f')) ||
    (decide ('A' ≤ c) && decide (c ≤ 'F'))

/-- R84: hex text has even length and only accepted characters; the empty text is accepted. -/
def wellFormedHex (t : List Char) : Bool := decide (t.length % 2 = 0) && t.all isHexChar

/-- R36, R81: `RD` takes a register of the map, so the index of `BUFW[i]` lies below `BUF_CAP`. DEDUCED (log 22). -/
def RegName.wellFormed (cap : Nat) : RegName → Bool
  | .bufw i => decide (i < cap)
  | _ => true

/-- R79: a byte operand lies in 0 to 255. R80: `.word` takes a 32-bit value, and `WR CTRL` writes one (R81, log 16).
R81: `RD` takes a register of R36 (log 22). R84, R85: `LOADHEX` and `BUILD` take well-formed hex text. -/
def Line.wellFormed (cap : Nat) : Line → Bool
  | .clear => true
  | .push b => decide (b < 256)
  | .crcInit => true
  | .crcByte b => decide (b < 256)
  | .crcBuf => true
  | .append => true
  | .hdrlen => true
  | .validate => true
  | .decode => true
  | .word w => decide (w < 2 ^ 32)
  | .wrCtrl v => decide (v < 2 ^ 32)
  | .rd r => r.wellFormed cap
  | .pushB bs => bs.all fun b => decide (b < 256)
  | .rxFrame bs => bs.all fun b => decide (b < 256)
  | .loadHex t => wellFormedHex t
  | .build t => wellFormedHex t

end Sys2Proof
end

