-- ==== Sys2Proof/Machine/Assembler.lean ====
section
/-! DEFINITION. The assembler of host programs (30_encoding.md R79 to R85) for a block of capacity `cap`: each line
becomes a sequence of host accesses, or is rejected by name. It stands outside the block (00_scope.md R3, log 15): the
block sees the accesses only. -/

namespace Sys2Proof.Machine

/-- Why the assembler rejects a line. -/
inductive AsmError where
  /-- An operand outside its range: a byte outside 0 to 255 (R79), a word of more than 32 bits (R80, log 16), an index
  of `BUFW[i]` that is not below `BUF_CAP` (R36, R81, log 22). -/
  | operandRange
  /-- Hex text of odd length or with another character: the source's `MalformedCommand` (R84, R175). -/
  | malformedCommand
  /-- A line that no rule of R80 to R85 gives a form (R79). -/
  | unknownLine
  deriving DecidableEq, Repr

/-- A host access as a line spells it, by offset (R10). -/
inductive HostAccess where
  | memRead (off : Nat)
  | memWrite (off : Nat) (v : Word)
  deriving DecidableEq, Repr

/-- The offset of the register an access reaches. -/
def HostAccess.offset : HostAccess → Nat
  | .memRead off => off
  | .memWrite off _ => off

/-- The access on the bus of a block with parameters `p`. -/
def HostAccess.event (p : Params) : HostAccess → HostEvent
  | .memRead off => Sys2Proof.Machine.memRead p off
  | .memWrite off v => Sys2Proof.Machine.memWrite p off v

/-- A byte operand, rejected outside 0 to 255 (R79). -/
def byteOperand (n : Nat) : Except AsmError Byte :=
  if n < 2 ^ 8 then .ok (BitVec.ofNat 8 n) else .error .operandRange

/-- Byte operands, in order. -/
def byteOperands : List Nat → Except AsmError (List Byte)
  | [] => .ok []
  | n :: ns =>
    match byteOperand n, byteOperands ns with
    | .ok b, .ok bs => .ok (b :: bs)
    | _, _ => .error .operandRange

/-- A word operand (R80, R81, log 16). -/
def wordOperand (n : Nat) : Except AsmError Word :=
  if n < 2 ^ 32 then .ok (BitVec.ofNat 32 n) else .error .operandRange

/-- A register operand: the register where the map has it (R36, R81, log 22). -/
def registerOperand (cap : Nat) (r : RegName) : Except AsmError RegName :=
  if r.wellFormed cap then .ok r else .error .operandRange

/-- The value of a hex digit, in either case; none for any other character (R84). -/
def hexDigit (c : Char) : Option Nat :=
  if 48 ≤ c.toNat ∧ c.toNat ≤ 57 then some (c.toNat - 48)
  else if 97 ≤ c.toNat ∧ c.toNat ≤ 102 then some (c.toNat - 87)
  else if 65 ≤ c.toNat ∧ c.toNat ≤ 70 then some (c.toNat - 55)
  else none

/-- The bytes of hex text, read two characters at a time, the first the high nibble (R84). -/
def hexBytes : List Char → Option (List Byte)
  | [] => some []
  | [_] => none
  | h :: l :: rest =>
    match hexDigit h, hexDigit l, hexBytes rest with
    | some a, some b, some bs => some (BitVec.ofNat 8 (16 * a + b) :: bs)
    | _, _, _ => none

/-- The write of a command's word to `CMD` (R80). -/
def commandAccess (i : Instr) : HostAccess := .memWrite 0x000 (encode i)

/-- `PUSHB b0, …` expands to one `PUSH` for each byte, in order (R82). -/
def pushAccesses (bs : List Byte) : List HostAccess := bs.map fun b => commandAccess (.push b)

/-- The accesses of a line, or why it is rejected; a rejected line emits nothing (R79 to R85). -/
def assembleLine (cap : Nat) : Line → Except AsmError (List HostAccess)
  | .clear => .ok [commandAccess .clear]
  | .push n => (byteOperand n).map fun b => [commandAccess (.push b)]
  | .crcInit => .ok [commandAccess .crcInit]
  | .crcByte n => (byteOperand n).map fun b => [commandAccess (.crcByte b)]
  | .crcBuf => .ok [commandAccess .crcBuf]
  | .append => .ok [commandAccess .append]
  | .hdrlen => .ok [commandAccess .hdrlen]
  | .validate => .ok [commandAccess .validate]
  | .decode => .ok [commandAccess .decode]
  | .word n => (wordOperand n).map fun w => [.memWrite 0x000 w]
  | .wrCtrl n => (wordOperand n).map fun v => [.memWrite 0x004 v]
  | .rd r => (registerOperand cap r).map fun r => [.memRead (offsetOf r)]
  | .pushB ns => (byteOperands ns).map pushAccesses
  | .rxFrame ns => (byteOperands ns).map fun bs => commandAccess .clear :: pushAccesses bs
  | .loadHex t =>
    match hexBytes t with
    | some bs => .ok (pushAccesses bs)
    | none => .error .malformedCommand
  | .build t =>
    match hexBytes t with
    | some bs => .ok (commandAccess .clear :: pushAccesses bs ++ [commandAccess .append])
    | none => .error .malformedCommand

/-- The accesses of a host program, line after line (R79, R201). DESIGN CHOICE (log 23): a rejected line rejects the whole
program, which then has no accesses, and the error is the first rejected line's; R79 and R84 speak of the line only. -/
def assemble (cap : Nat) : List Line → Except AsmError (List HostAccess)
  | [] => .ok []
  | l :: ls =>
    match assembleLine cap l, assemble cap ls with
    | .ok as, .ok rest => .ok (as ++ rest)
    | .error e, _ => .error e
    | .ok _, .error e => .error e

/-- The events of a host program on the bus of a block with parameters `p`. -/
def programEvents (p : Params) (ls : List Line) : Except AsmError (List HostEvent) :=
  (assemble p.bufCap ls).map fun as => as.map fun a => a.event p

end Sys2Proof.Machine
end

