-- ==== Sys2Proof/Machine/AsmText.lean ====
section
/-! DEFINITION. The text of a host program's line (30_encoding.md R79 to R85): comments, numbers, operands and the
form of each line. How the text is divided into words, and that an empty line stands for nothing, are read from the
examples (log 15); where a comment starts in a line with quoted text is a choice (log 24). -/

namespace Sys2Proof.Machine

/-- The line without its comment, which starts with `;` and runs to the end (R79). DESIGN CHOICE (log 24): a `;` inside
the quoted text of `LOADHEX` or `BUILD` starts a comment too, so such a line is rejected as `unknownLine`, its closing
quote cut off, and not as `malformedCommand` (R84). -/
def stripComment (t : List Char) : List Char := t.takeWhile fun c => c ≠ ';'

/-- Space or tab. -/
def isBlank (c : Char) : Bool := c = ' ' ∨ c = '\t'

/-- The text without blanks at its ends. -/
def stripBlanks (t : List Char) : List Char :=
  ((t.dropWhile isBlank).reverse.dropWhile isBlank).reverse

/-- The digits of a number in base `base`, most significant first, onto `acc`. -/
def digitsValue (base : Nat) : List Char → Nat → Option Nat
  | [], acc => some acc
  | c :: cs, acc =>
    match hexDigit c with
    | some d => if d < base then digitsValue base cs (acc * base + d) else none
    | none => none

/-- A number: `0x`-prefixed hexadecimal or decimal, with at least one digit (R79). -/
def parseNumber : List Char → Option Nat
  | '0' :: 'x' :: c :: cs => digitsValue 16 (c :: cs) 0
  | c :: cs => digitsValue 10 (c :: cs) 0
  | [] => none

/-- The operands between commas, each without blanks at its ends; no operand where there is no text (R82). -/
def splitOperands (t : List Char) : List (List Char) :=
  if (stripBlanks t).isEmpty then [] else (t.splitOn ',').map stripBlanks

/-- The numbers of an operand list, in order. -/
def parseNumbers : List (List Char) → Option (List Nat)
  | [] => some []
  | t :: ts =>
    match parseNumber t, parseNumbers ts with
    | some n, some ns => some (n :: ns)
    | _, _ => none

/-- The text between a pair of double quotes (R84). -/
def parseQuoted : List Char → Option (List Char)
  | '\"' :: rest =>
    match rest.reverse with
    | '\"' :: inside => if inside.contains '\"' then none else some inside.reverse
    | _ => none
  | _ => none

/-- The name of a register, as R36 spells it; `BUFW[i]` takes a number (R81). -/
def parseRegister (t : List Char) : Option RegName :=
  if t = "CMD".toList then some .cmd
  else if t = "CTRL".toList then some .ctrl
  else if t = "STATUS".toList then some .status
  else if t = "LEN".toList then some .len
  else if t = "CRC".toList then some .crc
  else if t = "CHECK".toList then some .check
  else if t = "FRAMEINFO".toList then some .frameinfo
  else if t = "VALUE".toList then some .value
  else if t = "STRINFO".toList then some .strinfo
  else if t = "STR0".toList then some .str0
  else if t = "STR1".toList then some .str1
  else if t = "CAP".toList then some .cap
  else if t.take 5 = "BUFW[".toList ∧ t.getLast? = some ']' then
    (parseNumber (stripBlanks ((t.drop 5).dropLast))).map .bufw
  else none

/-- A line from its first word and the rest of its text; none where no rule gives it a form (R80 to R85). -/
def parseForm (word rest : List Char) : Option Line :=
  if word = "CLEAR".toList ∧ rest.isEmpty then some .clear
  else if word = "PUSH".toList then (parseNumber rest).map .push
  else if word = "CRC.INIT".toList ∧ rest.isEmpty then some .crcInit
  else if word = "CRC.BYTE".toList then (parseNumber rest).map .crcByte
  else if word = "CRC.BUF".toList ∧ rest.isEmpty then some .crcBuf
  else if word = "APPEND".toList ∧ rest.isEmpty then some .append
  else if word = "HDRLEN".toList ∧ rest.isEmpty then some .hdrlen
  else if word = "VALIDATE".toList ∧ rest.isEmpty then some .validate
  else if word = "DECODE".toList ∧ rest.isEmpty then some .decode
  else if word = ".word".toList then (parseNumber rest).map .word
  else if word = "WR".toList then
    match splitOperands rest with
    | [r, v] => if r = "CTRL".toList then (parseNumber v).map .wrCtrl else none
    | _ => none
  else if word = "RD".toList then (parseRegister rest).map .rd
  else if word = "PUSHB".toList then (parseNumbers (splitOperands rest)).map .pushB
  else if word = "RXFRAME".toList then (parseNumbers (splitOperands rest)).map .rxFrame
  else if word = "LOADHEX".toList then (parseQuoted rest).map .loadHex
  else if word = "BUILD".toList then (parseQuoted rest).map .build
  else none

/-- The line a text spells: none where it holds a comment or blanks only. -/
def parseLine (t : List Char) : Except AsmError (Option Line) :=
  let body := stripBlanks (stripComment t)
  if body.isEmpty then .ok none
  else
    match parseForm (body.takeWhile fun c => !isBlank c) (stripBlanks (body.dropWhile fun c => !isBlank c)) with
    | some l => .ok (some l)
    | none => .error .unknownLine

/-- The lines of a program's text, one list of characters a line. DESIGN CHOICE (log 23): a line of no form rejects the
whole program, and the error is the first such line's. -/
def parseProgram : List (List Char) → Except AsmError (List Line)
  | [] => .ok []
  | t :: ts =>
    match parseLine t, parseProgram ts with
    | .ok (some l), .ok ls => .ok (l :: ls)
    | .ok none, .ok ls => .ok ls
    | .error e, _ => .error e
    | .ok _, .error e => .error e

end Sys2Proof.Machine
end

