-- ==== Sys2Proof/Machine/DecodedValue.lean ====
section
/-! DEFINITION. What the host reads off the block's state: the outcome of a decode (10_state.md R34) and the
structured events (60_exceptions.md R184). These are views; they hold no state. -/

namespace Sys2Proof.Machine

/-- The source's DecodedValue, "a tagged union over {UInt16, UInt32, AsciiString, RawBytes, Absent}" (R29). -/
inductive DecodedValue where
  | absent
  | uint16 (v : Half)
  | uint32 (v : Word)
  | ascii (t : List Byte)
  | raw (p : List Byte)
  deriving DecidableEq, Repr

/-- The DecodedValue that the state after DECODE stands for (R34). It holds until the next command that writes
`TAG`, `VALUE`, `STR` or `BUF` (R194, log 21). -/
def State.decodedValue (s : State) : DecodedValue :=
  match s.tag with
  | .absent => .absent
  | .uint16 => .uint16 (s.value.extractLsb' 0 16)
  | .uint32 => .uint32 s.value
  | .ascii => .ascii (s.str.toList.take s.strlen.toNat)
  | .raw => .raw s.payload

/-- The `DecodeError` reason that goes with it: `STATUS.ERR`, none where it is `NONE` (R34). -/
def State.decodeReason (s : State) : Option ErrCode :=
  match s.err with
  | .none => Option.none
  | e => some e

/-- The frame bytes as the host reads them, `BUFW[0..LEN-1]`: the sent frame after APPEND, the received frame after
its bytes are pushed (R103, R184). -/
def State.windowBytes (s : State) : List Byte :=
  (List.range s.len).map fun i => (s.readRegister (.bufw i)).extractLsb' 0 8

end Sys2Proof.Machine
end

