-- ==== Sys2Proof/Safety.lean ====
section
/-! DEFINITION. The terms in which claims about the machine are stated: the invariants of 10_state.md R35, the
accesses R52 admits, the completion of a step, and the source's decode as a function of the response alone. -/

namespace Sys2Proof.Machine

/-- The outcome is a next state that satisfies `P`. -/
def Completes (o : Host.Outcome State Fault Refusal) (P : State → Prop) : Prop := ∃ t, o = .next t ∧ P t

/-- Commands issued one after another, up to the first stop. -/
def execAll : List Instr → State → Host.Outcome State Fault Refusal
  | [], s => .next s
  | i :: is, s =>
    match exec i s with
    | .next t => execAll is t
    | .fault r => .fault r
    | .refused r => .refused r

/-- `s` with error code `e` and with nothing in the header, check and value groups, field by field as R48 lists
them. -/
abbrev State.bare (s : State) (e : ErrCode) : State :=
  { s with
    err := e
    hdrv := false
    bcnt := 0
    explen := 0
    verdict := .notChecked
    calcCrc := 0
    rxCrc := 0
    tag := .absent
    value := 0
    strlen := 0
    str := Vector.replicate 8 0 }

/-- The legality predicate as R75 writes it, on the fields' numbers: `w[31:16]` is 0, and `w[7:0]` is 0x02 or 0x04, or
is 0x01, 0x03 or 0x05 to 0x09 with `w[15:8]` = 0. -/
abbrev LegalWord (w : Word) : Prop :=
  w.toNat / 2 ^ 16 = 0 ∧
    (w.toNat % 2 ^ 8 ∈ [0x02, 0x04] ∨
      (w.toNat % 2 ^ 8 ∈ [0x01, 0x03, 0x05, 0x06, 0x07, 0x08, 0x09] ∧ w.toNat / 2 ^ 8 % 2 ^ 8 = 0))

/-- R35.1: no header, no header fields; a header, and `EXPLEN` = `BCNT` + 5. -/
abbrev HeaderInv (s : State) : Prop :=
  (s.hdrv = false → s.bcnt = 0 ∧ s.explen = 0) ∧ (s.hdrv = true → s.explen.toNat = s.bcnt.toNat + 5)

/-- R35.2, and R42: the halves of `CHECK` are 0 where no checksum was compared, equal after a match, and different
after a mismatch. -/
abbrev CheckInv (s : State) : Prop :=
  (s.verdict = .notChecked → s.calcCrc = 0 ∧ s.rxCrc = 0) ∧ (s.verdict = .matched → s.calcCrc = s.rxCrc) ∧
    (s.verdict = .mismatched → s.calcCrc ≠ s.rxCrc)

/-- R35.3 and R35.4: where the value registers are 0. -/
abbrev ValueInv (s : State) : Prop :=
  (s.tag = .absent ∨ s.tag = .ascii ∨ s.tag = .raw → s.value = 0) ∧ (s.tag = .uint16 → s.value.toNat < 2 ^ 16) ∧
    (s.tag ≠ .ascii → s.strlen = 0) ∧ (∀ i : Fin 8, s.strlen.toNat ≤ i.val → s.str[i] = 0)

/-- R35.5 and R35.6: a value goes with a header and a verdict, and its variant with the byte count. -/
abbrev TagInv (s : State) : Prop :=
  (s.tag ≠ .absent → s.hdrv = true ∧ s.verdict ≠ .notChecked) ∧ (s.tag = .uint16 → s.bcnt = 2) ∧
    (s.tag = .uint32 → s.bcnt = 4) ∧ (s.tag = .ascii → s.bcnt = 8) ∧
    (s.tag = .raw → s.bcnt ≠ 2 ∧ s.bcnt ≠ 4 ∧ s.bcnt ≠ 8)

/-- R35.7: the codes are legal ones, `STRLEN` ≤ 8 and `LEN` ≤ `BUF_CAP`. -/
abbrev RangeInv (s : State) : Prop :=
  s.err.code.toNat ≤ 4 ∧ s.verdict.code.toNat ≤ 2 ∧ s.tag.code.toNat ≤ 4 ∧ s.strlen.toNat ≤ 8 ∧
    Memory.wf s.params.bufCap s.buf = true

/-- The invariants of R35, all seven, with R5's and R58's requirements on the parameters. -/
abbrev State.Inv (s : State) : Prop :=
  s.params.Ok ∧ HeaderInv s ∧ CheckInv s ∧ ValueInv s ∧ TagInv s ∧ RangeInv s

/-- An event that R52 and R58 admit: reset, or a 32-bit access at an offset inside the decode range that is a
multiple of 4. -/
def HostEvent.Admitted (p : Params) : HostEvent → Prop
  | .read addr bytes => p.base ≤ addr ∧ addr < p.base + p.decodeRange ∧ bytes = 4 ∧ (addr - p.base) % 4 = 0
  | .write addr bytes _ => p.base ≤ addr ∧ addr < p.base + p.decodeRange ∧ bytes = 4 ∧ (addr - p.base) % 4 = 0
  | .reset => True

/-- The payload of a response as the source's step 4 reads it, by the number of bytes declared: 2 and 4 bytes are
big-endian unsigned integers, 8 bytes are ASCII text trimmed at its ends, any other number is the bytes themselves
(43_decoder.md R150 to R156, R159). Written with list and bit-string operations only, none of the machine's own. -/
def referenceValue (n : Nat) (p : List Byte) : DecodedValue :=
  match n, p with
  | 2, [a, b] => .uint16 (a ++ b)
  | 4, [a, b, c, d] => .uint32 (a ++ b ++ c ++ d)
  | 8, t =>
    .ascii (((t.filter fun b => b.toNat < 128).dropWhile fun b => [0, 32, 13, 10].contains b.toNat).rdropWhile
      fun b => [0, 32, 13, 10].contains b.toNat)
  | _, t => .raw t

/-- The source's `decode(response) -> DecodedValue`, steps 1 to 4, paired with the `DecodeError` reason (R34, R132,
R155, R158): a function of the policy and the response's bytes alone. -/
def referenceDecode (strict : Bool) (r : List Byte) : DecodedValue × Option ErrCode :=
  if r.length < 5 then (.absent, some .shortFrame)
  else if r.length < 3 + (r.getD 2 0).toNat + 2 then (.absent, some .shortFrame)
  else if r.drop (r.length - 2) =
      [(checksum (r.take (r.length - 2))).extractLsb' 0 8, (checksum (r.take (r.length - 2))).extractLsb' 8 8] then
    (referenceValue (r.getD 2 0).toNat ((r.drop 3).take (r.getD 2 0).toNat), none)
  else if strict then (.absent, some .checksumMismatch)
  else (referenceValue (r.getD 2 0).toNat ((r.drop 3).take (r.getD 2 0).toNat), some .checksumMismatch)

end Sys2Proof.Machine
end

