-- ==== Sys2Proof/Certificates/Slice0/Obligations.lean ====
section
/-! DEFINITION. The statements about this model: the rules of spec/ that say what a command, a host access or the
machine does. An equation `… = .next { s with … }` says the whole frame: every field it does not name is unchanged. -/

open Sys2Proof Sys2Proof.Machine

/-! ## Encoding (30_encoding.md) -/

/-- R71, R74: decoding the word of a well-formed command gives that command back. -/
def Obligations.DecodeEncodeRoundTrip : Prop :=
  ∀ i : Instr, i.wellFormed = true → decode (encode i) = .ok i

/-- R75: the words the decoder accepts are exactly the legal ones; each is the word of the command it decodes to, so every
word is exactly one command or illegal; and there are 2·256 + 7 = 519 legal words, a count R75 marks "derived: from rule
R74 and this rule". -/
def Obligations.DecoderAcceptsExactlyThe519LegalWords : Prop :=
  (∀ w : Word, LegalWord w ↔ ∃ i, decode w = .ok i) ∧
    (∀ (w : Word) (i : Instr), decode w = .ok i → encode i = w) ∧
    ∃ ws : List Word, ws.Nodup ∧ ws.length = 519 ∧ ∀ w, w ∈ ws ↔ LegalWord w

/-- R74: each row of the opcode map, by its match and mask; a class B row's operand is `IMM8`, `w[15:8]`. -/
def Obligations.OpcodeMapByMatchAndMask : Prop :=
  ∀ w : Word,
    (decode w = .ok .clear ↔ w &&& 0xFFFFFFFF#32 = 0x00000001#32) ∧
    (∀ b, decode w = .ok (.push b) ↔
      w &&& 0xFFFF00FF#32 = 0x00000002#32 ∧ w.toNat / 2 ^ 8 % 2 ^ 8 = b.toNat) ∧
    (decode w = .ok .crcInit ↔ w &&& 0xFFFFFFFF#32 = 0x00000003#32) ∧
    (∀ b, decode w = .ok (.crcByte b) ↔
      w &&& 0xFFFF00FF#32 = 0x00000004#32 ∧ w.toNat / 2 ^ 8 % 2 ^ 8 = b.toNat) ∧
    (decode w = .ok .crcBuf ↔ w &&& 0xFFFFFFFF#32 = 0x00000005#32) ∧
    (decode w = .ok .append ↔ w &&& 0xFFFFFFFF#32 = 0x00000006#32) ∧
    (decode w = .ok .hdrlen ↔ w &&& 0xFFFFFFFF#32 = 0x00000007#32) ∧
    (decode w = .ok .validate ↔ w &&& 0xFFFFFFFF#32 = 0x00000008#32) ∧
    (decode w = .ok .decode ↔ w &&& 0xFFFFFFFF#32 = 0x00000009#32)

/-- R86 (examples the spec marks "derived: from rule R71 and rule R80"): the encoding examples, the illegal words among
them, and the `LOADHEX` examples. -/
def Obligations.EncodingExamples : Prop :=
  decode 0x00000102#32 = .ok (.push 0x01) ∧ decode 0x0000FF02#32 = .ok (.push 0xFF) ∧
    decode 0x00009804#32 = .ok (.crcByte 0x98) ∧ decode 0x00000009#32 = .ok .decode ∧
    encode (.push 0x01) = 0x00000102#32 ∧ encode (.push 0xFF) = 0x0000FF02#32 ∧
    encode (.crcByte 0x98) = 0x00009804#32 ∧ encode .decode = 0x00000009#32 ∧
    decode 0x00000109#32 = .error .operandOnClassZ ∧ decode 0x00010002#32 = .error .reservedBitsSet ∧
    decode 0x0000000A#32 = .error .reservedOpcode ∧ decode 0x00000000#32 = .error .reservedOpcode ∧
    ∀ cap : Nat, assembleLine cap (.loadHex ['0', '1', '0', '3', '0', '0', '0', '0', '0', '0', '0', '1']) =
      .ok ([0x01, 0x03, 0x00, 0x00, 0x00, 0x01].map fun b => HostAccess.memWrite 0 (encode (.push b))) ∧
    assembleLine cap (.loadHex ['0', '1', '0', '3', 'G', '0']) = .error .malformedCommand ∧
    assembleLine cap (.loadHex ['0', '1', '0']) = .error .malformedCommand

/-- R80, R81: the word each block command line assembles to, by number, as a write to offset 0x000; `WR CTRL, v` is a
write of `v` to offset 0x004; `RD` of each register, and of `BUFW[i]`, is a read of its offset of R36. And texts of these
lines: R79 gives comments and numbers; how a text is divided into words is read from the examples (log 15). -/
def Obligations.CommandLinesAssembleToTheirWords : Prop :=
  (∀ r ∈ ([("CLEAR", .clear), ("PUSH 0xFF", .push 255), ("CRC.INIT", .crcInit), ("CRC.BYTE 152", .crcByte 0x98),
      ("CRC.BUF", .crcBuf), ("APPEND", .append), ("HDRLEN", .hdrlen), ("VALIDATE ; steps 1 to 3", .validate),
      ("DECODE", .decode), (".word 0x00000109", .word 0x109), ("WR CTRL, 1", .wrCtrl 1), ("RD STATUS", .rd .status),
      ("RD BUFW[7]", .rd (.bufw 7))] : List (String × Line)),
    parseLine r.1.toList = .ok (some r.2)) ∧
    ∀ cap : Nat,
    assembleLine cap .clear = .ok [.memWrite 0x000 0x00000001] ∧
    (∀ b < 256, assembleLine cap (.push b) = .ok [.memWrite 0x000 (BitVec.ofNat 32 (2 + 256 * b))]) ∧
    assembleLine cap .crcInit = .ok [.memWrite 0x000 0x00000003] ∧
    (∀ b < 256, assembleLine cap (.crcByte b) = .ok [.memWrite 0x000 (BitVec.ofNat 32 (4 + 256 * b))]) ∧
    assembleLine cap .crcBuf = .ok [.memWrite 0x000 0x00000005] ∧
    assembleLine cap .append = .ok [.memWrite 0x000 0x00000006] ∧
    assembleLine cap .hdrlen = .ok [.memWrite 0x000 0x00000007] ∧
    assembleLine cap .validate = .ok [.memWrite 0x000 0x00000008] ∧
    assembleLine cap .decode = .ok [.memWrite 0x000 0x00000009] ∧
    (∀ w : Word, assembleLine cap (.word w.toNat) = .ok [.memWrite 0x000 w]) ∧
    (∀ v : Word, assembleLine cap (.wrCtrl v.toNat) = .ok [.memWrite 0x004 v]) ∧
    (∀ r ∈ ([(.cmd, 0x000), (.ctrl, 0x004), (.status, 0x008), (.len, 0x00C), (.crc, 0x010), (.check, 0x014),
        (.frameinfo, 0x018), (.value, 0x01C), (.strinfo, 0x020), (.str0, 0x024), (.str1, 0x028),
        (.cap, 0x02C)] : List (RegName × Nat)),
      assembleLine cap (.rd r.1) = .ok [.memRead r.2]) ∧
    ∀ i < cap, assembleLine cap (.rd (.bufw i)) = .ok [.memRead (0x400 + 4 * i)]

/-! ## The host's accesses (00_scope.md R10, 20_memory.md, 10_state.md §3) -/

/-- R70: a write to `CMD` performs the command that a legal word spells, selected by `w[7:0]` with operand `w[15:8]`
(the command whose word it is), and records `ILLEGAL_COMMAND` for any other word; a write to any other offset never
executes a command: it does nothing, or is a `CTRL` write. -/
def Obligations.WriteToCmdIssuesTheCommand : Prop :=
  ∀ (s : State) (w : Word), s.params.Ok →
    (∀ i : Instr, encode i = w → perform (memWrite s.params 0x000 w) s = exec i s) ∧
    (LegalWord w → ∃ i : Instr, encode i = w) ∧
    (¬ LegalWord w → perform (memWrite s.params 0x000 w) s = .next { s with err := .illegalCommand }) ∧
    ∀ off, off ≠ 0 → off % 4 = 0 → off < s.params.decodeRange →
      perform (memWrite s.params off w) s = .next s ∨
        (off = 4 ∧ perform (memWrite s.params off w) s = .next { s with strict := w.getLsbD 0 })

/-- R76: an illegal word sets `ERR` to code 3 and changes nothing else, in each of the four cases the rule lists. -/
def Obligations.IllegalWordOnlyRecordsItself : Prop :=
  ErrCode.illegalCommand.code = 3 ∧
    ∀ (s : State) (w : Word), s.params.Ok →
      (w.toNat % 256 = 0x00 ∨ 0x0A ≤ w.toNat % 256 ∨ w.toNat / 2 ^ 16 ≠ 0 ∨
        (w.toNat % 256 ≠ 0x02 ∧ w.toNat % 256 ≠ 0x04 ∧ w.toNat / 2 ^ 8 % 2 ^ 8 ≠ 0)) →
      perform (memWrite s.params 0x000 w) s = .next { s with err := .illegalCommand }

/-- R38: bit 0 of `CTRL` is `STRICT`; a write sets it and changes nothing else; a read returns it zero-extended; it is
0 at reset. -/
def Obligations.CtrlWritesAndReadsStrict : Prop :=
  (∀ (s : State) (v : Word), s.params.Ok →
    perform (memWrite s.params 0x004 v) s = .next { s with strict := v.getLsbD 0 } ∧
      s.readOffset 0x004 = if s.strict then 1 else 0) ∧
    ∀ p : Params, (State.resetWith p).readOffset 0x004 = 0

/-- R39: `STATUS` packs `ERR`, `VERDICT`, `TAG` and `HDRV` at bits 0, 4, 8 and 12, each with a legal value only, the
reserved bits reading 0; reading it clears nothing (the word goes to the host's record, log 3), a write is ignored, and
it is 0 at reset. -/
def Obligations.StatusRegisterPacksItsFields : Prop :=
  (∀ s : State, (s.readOffset 0x008).toNat =
    s.err.code.toNat + 2 ^ 4 * s.verdict.code.toNat + 2 ^ 8 * s.tag.code.toNat + 2 ^ 12 * s.hdrv.toNat ∧
    s.err.code.toNat ≤ 4 ∧ s.verdict.code.toNat ≤ 2 ∧ s.tag.code.toNat ≤ 4) ∧
    (∀ s : State, s.params.Ok →
      perform (memRead s.params 0x008) s = .next { s with returned := s.returned ++ [s.readOffset 0x008] } ∧
      ∀ v, perform (memWrite s.params 0x008 v) s = .next s) ∧
    ∀ p : Params, (State.resetWith p).readOffset 0x008 = 0

/-- R40, R41, R43 to R46: what the read-only result registers read as, by number, that a write to them is ignored, and
their values at reset. `LEN` and `CAP` are 16-bit fields. And `CMD` reads 0 (R37), `CHECK` packs `CALC` and `RXCRC`
(R42). -/
def Obligations.ResultRegistersReadTheirFields : Prop :=
  (∀ p : Params, p.Ok →
    (∀ off ∈ [0x00C, 0x014, 0x018, 0x01C, 0x020, 0x024, 0x028], (State.resetWith p).readOffset off = 0) ∧
      (State.resetWith p).readOffset 0x010 = 0x0000FFFF#32) ∧
    (∀ s : State, s.params.Ok →
      ∀ off ∈ [0x00C, 0x010, 0x014, 0x018, 0x01C, 0x020, 0x024, 0x028, 0x02C], ∀ v,
        perform (memWrite s.params off v) s = .next s) ∧
    ∀ s : State, s.params.Ok → s.len ≤ s.params.bufCap →
    s.readOffset 0x000 = 0 ∧
    (s.readOffset 0x00C).toNat = s.buf.length ∧
    (s.readOffset 0x010).toNat = s.crc.toNat ∧
    (s.readOffset 0x014).toNat = s.calcCrc.toNat + 2 ^ 16 * s.rxCrc.toNat ∧
    (s.readOffset 0x018).toNat = s.bcnt.toNat + 2 ^ 16 * s.explen.toNat ∧
    s.readOffset 0x01C = s.value ∧
    (s.readOffset 0x020).toNat = s.strlen.toNat ∧
    (s.readOffset 0x024).toNat =
      s.str[0].toNat + 2 ^ 8 * s.str[1].toNat + 2 ^ 16 * s.str[2].toNat + 2 ^ 24 * s.str[3].toNat ∧
    (s.readOffset 0x028).toNat =
      s.str[4].toNat + 2 ^ 8 * s.str[5].toNat + 2 ^ 16 * s.str[6].toNat + 2 ^ 24 * s.str[7].toNat ∧
    (s.readOffset 0x02C).toNat = s.params.bufCap

/-- R47 and R55: `BUFW[i]` reads byte `i` of the buffer, or 0 where there is none; an unmapped offset reads 0; a write
to either is ignored, and a read changes nothing but the host's record (log 3). -/
def Obligations.BufferWindowAndUnmappedReads : Prop :=
  ∀ s : State,
    (∀ i < s.params.bufCap, ∀ b, s.buf[i]? = some b → (s.readOffset (0x400 + 4 * i)).toNat = b.toNat) ∧
    (∀ i < s.params.bufCap, s.buf[i]? = none → s.readOffset (0x400 + 4 * i) = 0) ∧
    (∀ off, off % 4 = 0 → 0x030 ≤ off → off < 0x400 → s.readOffset off = 0) ∧
    (∀ off, off % 4 = 0 → 0x400 + 4 * s.params.bufCap ≤ off → s.readOffset off = 0) ∧
    (s.params.Ok → ∀ off, off % 4 = 0 → 0x030 ≤ off → off < s.params.decodeRange →
      perform (memRead s.params off) s = .next { s with returned := s.returned ++ [s.readOffset off] } ∧
      ∀ v, perform (memWrite s.params off v) s = .next s)

/-- R56: no read has a side effect on the block (the word goes to the host's record, the model's own field of log 3); a
`CTRL` write is idempotent; a write to any other offset than `CMD` is ignored, those of the read-only registers and
the unmapped ones among them; and a `CMD` write is not idempotent: two PUSH writes push two bytes. -/
def Obligations.SideEffectsOfHostAccesses : Prop :=
  ∀ s : State, s.params.Ok →
    (∀ off, off % 4 = 0 → off < s.params.decodeRange →
      perform (memRead s.params off) s = .next { s with returned := s.returned ++ [s.readOffset off] }) ∧
    (∀ v, performAll [memWrite s.params 0x004 v, memWrite s.params 0x004 v] s =
      perform (memWrite s.params 0x004 v) s) ∧
    (∀ off v, off % 4 = 0 → off < s.params.decodeRange → off ≠ 0x000 → off ≠ 0x004 →
      perform (memWrite s.params off v) s = .next s) ∧
    ∀ b, s.len + 2 ≤ s.params.bufCap →
      performAll [commandWrite s.params (.push b), commandWrite s.params (.push b)] s =
        .next { s with err := .none, buf := s.buf ++ [b, b] }

/-- R52 (as the model's fault of log 4): inside the decode range, an access of another width or at an offset that is not
a multiple of 4 is stuck. And the model's choice of log 5: an address outside the decode range is another unit's, and is
refused by name. -/
def Obligations.AccessesNotAdmittedStop : Prop :=
  ∀ (s : State) (addr bytes : Nat) (v : Word),
    (s.params.base ≤ addr → addr < s.params.base + s.params.decodeRange →
      (bytes ≠ 4 ∨ (addr - s.params.base) % 4 ≠ 0) →
      perform (.read addr bytes) s = .fault .accessNotAdmitted ∧
        perform (.write addr bytes v) s = .fault .accessNotAdmitted) ∧
    ((addr < s.params.base ∨ s.params.base + s.params.decodeRange ≤ addr) →
      perform (.read addr bytes) s = .refused .outsideBlock ∧
        perform (.write addr bytes v) s = .refused .outsideBlock)

/-- R52, R178, R201, and R46: every event that R52 and R58 admit is performed, whatever the state, and no event changes
the parameters, `CAP`'s constant among them, or the host's events still to come. And R201 (marked derived from R52, R57
and R79 to R85): every access of a host program that the assembler takes for this block (log 22) is admitted, so its run
from any state cannot be stuck. -/
def Obligations.AdmittedEventsComplete : Prop :=
  (∀ (s : State) (e : HostEvent), e.Admitted s.params →
    Completes (perform e s) fun t => t.params = s.params ∧ t.pending = s.pending) ∧
    ∀ (s : State) (ls : List Line) (es : List HostEvent), s.params.Ok → programEvents s.params ls = .ok es →
      (∀ e ∈ es, e.Admitted s.params) ∧
      Completes (performAll es s) fun t => t.params = s.params ∧ t.pending = s.pending

/-- R26: only a host write to `CTRL`, and reset, change `STRICT`; no block command does, CLEAR included. -/
def Obligations.OnlyCtrlWritesAndResetChangeStrict : Prop :=
  (∀ (s : State) (e : HostEvent) (t : State), perform e s = .next t →
    t.strict = s.strict ∨ (e = .reset ∧ t.strict = false) ∨
      ∃ v, e = .write (s.params.base + 0x004) 4 v ∧ t.strict = v.getLsbD 0) ∧
    ∀ (s : State) (i : Instr), Completes (exec i s) fun t => t.strict = s.strict

/-! ## The step and reset -/

/-- R70, R21: where the host's oldest event is the write of a word to `CMD`, and the word decodes to a well-formed
command, the step is that command performed, the event taken; and so it is for a command placed by `withFetchWord`. -/
def Obligations.StepRunsTheDecodedCommand : Prop :=
  (∀ (s : State) (w : Word) (rest : List HostEvent) (i : Instr), s.params.Ok →
    s.pending = memWrite s.params 0x000 w :: rest → decode w = .ok i → i.wellFormed = true →
    step s = exec i { s with pending := rest }) ∧
    ∀ (s : State) (i : Instr), s.params.Ok → step (s.withFetchWord 32 (encode i).toNat) = exec i s

/-- R20 and R182 (the model's reading, log 6): the unit has no step of its own, and all state holds its value while the
host is silent. -/
def Obligations.SilentHostLeavesTheStateAlone : Prop :=
  ∀ s : State, s.pending = [] → step s = .next s

/-- R60: stepping through the host's accesses performs them one at a time, in the host's order, each on the state the
earlier ones left; `pending` is the model's own record of what is still to come (log 2). -/
def Obligations.StepsPerformTheHostsAccessesInOrder : Prop :=
  ∀ (es : List HostEvent) (s : State),
    Host.Core.run Sys2Proof.core es.length { s with pending := es } = performAll es { s with pending := [] }

/-- R49: the reset value of every piece of state, and of `CAP`, at every legal capacity; the default capacity of R5 is
260. -/
def Obligations.ResetValues : Prop :=
  State.reset.params.bufCap = 260 ∧ Sys2Proof.core.reset = State.reset ∧
    State.reset = State.resetWith State.reset.params ∧
    ∀ p : Params, p.Ok →
      (State.resetWith p).buf = [] ∧ (State.resetWith p).len = 0 ∧ (State.resetWith p).crc = 0xFFFF#16 ∧
      (State.resetWith p).strict = false ∧ (State.resetWith p).err.code = 0 ∧
      (State.resetWith p).verdict.code = 0 ∧ (State.resetWith p).tag.code = 0 ∧
      (State.resetWith p).hdrv = false ∧ (State.resetWith p).bcnt = 0 ∧ (State.resetWith p).explen = 0 ∧
      (State.resetWith p).calcCrc = 0 ∧ (State.resetWith p).rxCrc = 0 ∧ (State.resetWith p).value = 0 ∧
      (State.resetWith p).strlen = 0 ∧ (∀ i : Fin 8, (State.resetWith p).str[i] = 0) ∧
      ((State.resetWith p).readOffset 0x02C).toNat = p.bufCap

/-- R190, R191: reset is a step of its own; it sets every piece of the block's state to its reset value, from any
state, and keeps the model's own fields (log 14); and CLEAR differs from it in `STRICT` only, which CLEAR leaves as it
is (R191, which the spec marks "derived: from rule R190" and R101). -/
def Obligations.ResetAndClearDifferInStrictOnly : Prop :=
  ∀ s : State, ∃ r c : State, perform .reset s = .next r ∧ exec .clear s = .next c ∧
    r = { State.resetWith s.params with pending := s.pending, returned := s.returned } ∧
    r.strict = false ∧ c = { r with strict := s.strict }

/-! ## The frame buffer commands (40_frame_buffer.md) -/

/-- R101: CLEAR's word; it starts a fresh frame from any state: the state is the reset state, but that `STRICT` keeps its
value (and so do the model's own fields, logs 1 to 3), which R101 marks "derived: from this rule and 10_state.md rule
R49". -/
def Obligations.ClearStartsAFreshFrame : Prop :=
  encode .clear = 0x00000001#32 ∧
    ∀ s : State, exec .clear s = .next { s.bare .none with buf := [], crc := 0xFFFF#16 } ∧
      exec .clear s = .next
        { State.resetWith s.params with strict := s.strict, pending := s.pending, returned := s.returned }

/-- R102: PUSH's word; it appends its byte at index `LEN` and writes `ERR` only besides; where the buffer already holds
`BUF_CAP` bytes it records `BUFFER_OVERFLOW` (code 4) and changes nothing else. -/
def Obligations.PushAppendsOneByteOrOverflows : Prop :=
  ErrCode.bufferOverflow.code = 4 ∧
    ∀ b : Byte, encode (.push b) = 0x00000002#32 ||| (b.setWidth 32 <<< 8) ∧
      ∀ s : State,
        (s.len ≠ s.params.bufCap → exec (.push b) s = .next { s with err := .none, buf := s.buf ++ [b] }) ∧
        (s.len = s.params.bufCap → exec (.push b) s = .next { s with err := .bufferOverflow })

/-- R23: whatever the command, no byte already in the buffer changes: the buffer keeps its bytes and grows by at most
two at its end, and grows by PUSH and APPEND only; CLEAR alone empties it; and the length stays within `BUF_CAP`. -/
def Obligations.NoCommandChangesAByteInTheBuffer : Prop :=
  ∀ (i : Instr) (s : State), Completes (exec i s) fun t =>
    (i = .clear → t.buf = []) ∧
    (i ≠ .clear → (∀ a < s.len, t.buf.read? a = s.buf.read? a) ∧ s.len ≤ t.len ∧ t.len ≤ s.len + 2) ∧
    (s.len < t.len → i = .append ∨ ∃ b, i = .push b) ∧
    (s.len ≤ s.params.bufCap → t.len ≤ t.params.bufCap)

/-! ## The CRC generator (41_crc_generator.md) -/

/-- R110, R111: `crc_step` is the XOR of the byte and eight turns of the shift loop; `checksum` starts at 0xFFFF, takes
the bytes in order, and has no final XOR; `lo` and `hi` are its bytes. R110 marks the loop "from general knowledge, not
in source" (log 11). -/
def Obligations.ChecksumFollowsTheShiftLoop : Prop :=
  (∀ (c : Half) (b : Byte), crcStep c b =
    (fun x : Half => if x.toNat % 2 = 1 then (x >>> 1) ^^^ 0xA001#16 else x >>> 1)^[8] (c ^^^ b.setWidth 16)) ∧
    checksum [] = 0xFFFF#16 ∧ (∀ (s : List Byte) (b : Byte), checksum (s ++ [b]) = crcStep (checksum s) b) ∧
    ∀ c : Half, (lo c).toNat = c.toNat % 256 ∧ (hi c).toNat = c.toNat / 256

/-- R110: 0xA001 is the bit-reversal of 0x8005, and the loop is the reflected form of the most-significant-bit-first
CRC with that polynomial: the two agree bit for bit when every value is read in the other order. R110 marks "the link to
0x8005" and the loop "from general knowledge, not in source" (log 11). -/
def Obligations.CrcStepIsTheReflectedMsbFirstStep : Prop :=
  (0xA001#16).reverse = 0x8005#16 ∧
    ∀ (c : Half) (b : Byte), (crcStep c b).reverse =
      (fun x : Half => if x.msb then (x <<< 1) ^^^ 0x8005#16 else x <<< 1)^[8]
        (c.reverse ^^^ (b.reverse.setWidth 16 <<< 8))

/-- R112 (values the spec marks "derived: from rule R110 and rule R111, computed"): the reference values, with their low
and high bytes, and the bit trace of `crc_step(0xFFFF, 0x01)`. -/
def Obligations.ChecksumReferenceValues : Prop :=
  (∀ r ∈ ([([], 0xFFFF, 0xFF, 0xFF), ([0x00], 0x40BF, 0xBF, 0x40), ([0x01], 0x807E, 0x7E, 0x80),
      ([0xFF], 0x00FF, 0xFF, 0x00),
      ([0x31, 0x32, 0x33, 0x34, 0x35, 0x36, 0x37, 0x38, 0x39], 0x4B37, 0x37, 0x4B),
      ([0x01, 0x03, 0x00, 0x00, 0x00, 0x01], 0x0A84, 0x84, 0x0A),
      ([0x01, 0x03, 0x00, 0x98, 0x00, 0x02], 0xE445, 0x45, 0xE4)] : List (List Byte × Half × Byte × Byte)),
    checksum r.1 = r.2.1 ∧ lo r.2.1 = r.2.2.1 ∧ hi r.2.1 = r.2.2.2) ∧
    (0xFFFF#16 ^^^ (0x01#8).setWidth 16) = 0xFFFE#16 ∧
    (List.range 8).map (fun n => crcShifts (n + 1) 0xFFFE#16) =
      [0x7FFF, 0x9FFE, 0x4FFF, 0x87FE, 0x43FF, 0x81FE, 0x40FF, 0x807E]

/-- R113: CRC.INIT's word; it resets the accumulator and writes `ERR`, and nothing else. -/
def Obligations.CrcInitResetsTheAccumulator : Prop :=
  encode .crcInit = 0x00000003#32 ∧ ∀ s : State, exec .crcInit s = .next { s with err := .none, crc := 0xFFFF#16 }

/-- R114: CRC.BYTE's word; it advances the accumulator by one step from whatever it holds and stores the byte nowhere;
CRC.INIT and then CRC.BYTE of each byte leaves the checksum of the bytes; CRC.BUF, APPEND and CLEAR lose the running
value; and the trace of the example. R114 marks the streamed checksum "derived: from rule R111 and this rule" and the
trace "derived: from rule R110", whose loop is general knowledge (log 11). -/
def Obligations.CrcByteStreamsTheChecksum : Prop :=
  (∀ b : Byte, encode (.crcByte b) = 0x00000004#32 ||| (b.setWidth 32 <<< 8) ∧
    ∀ s : State, exec (.crcByte b) s = .next { s with err := .none, crc := crcStep s.crc b }) ∧
    (∀ (bs : List Byte) (s : State),
      execAll (.crcInit :: bs.map fun b => .crcByte b) s = .next { s with err := .none, crc := checksum bs }) ∧
    (∀ (s : State) (x : Half), exec .crcBuf { s with crc := x } = exec .crcBuf s ∧
      exec .clear { s with crc := x } = exec .clear s ∧
      (s.len + 2 ≤ s.params.bufCap → exec .append { s with crc := x } = exec .append s)) ∧
    crcStep 0xFFFF#16 0x01 = 0x807E#16 ∧ crcStep 0x807E#16 0x03 = 0x2140#16 ∧ crcStep 0x2140#16 0x00 = 0xF020#16 ∧
    crcStep 0xF020#16 0x00 = 0xD8F1#16 ∧ crcStep 0xD8F1#16 0x00 = 0x8419#16 ∧ crcStep 0x8419#16 0x01 = 0x0A84#16

/-- R115: CRC.BUF's word; it sets the accumulator to the checksum of the whole buffer, whatever it held; an empty buffer
gives 0xFFFF, and a buffer that ends in its own appended checksum gives 0. -/
def Obligations.CrcBufChecksumsTheBuffer : Prop :=
  encode .crcBuf = 0x00000005#32 ∧
    (∀ s : State, exec .crcBuf s = .next { s with err := .none, crc := checksum s.buf }) ∧
    (∀ s : State, s.buf = [] → exec .crcBuf s = .next { s with err := .none, crc := 0xFFFF#16 }) ∧
    (∀ (s : State) (m : List Byte), s.buf = m ++ [lo (checksum m), hi (checksum m)] →
      exec .crcBuf s = .next { s with err := .none, crc := 0 }) ∧
    ∀ s : State, s.buf = [0x01, 0x03, 0x00, 0x00, 0x00, 0x01] →
      exec .crcBuf s = .next { s with err := .none, crc := 0x0A84#16 }

/-- R116: APPEND's word; where two bytes are free it appends the checksum low byte first and leaves it in `CRC`; where
fewer are free it records `BUFFER_OVERFLOW` and appends nothing; an empty buffer becomes `FF FF`; and a second APPEND
appends 0x0000. -/
def Obligations.AppendAddsTheChecksumLowByteFirst : Prop :=
  encode .append = 0x00000006#32 ∧
    (∀ s : State, s.len + 2 ≤ s.params.bufCap → exec .append s = .next
      { s with err := .none
               buf := s.buf ++ [(checksum s.buf).extractLsb' 0 8, (checksum s.buf).extractLsb' 8 8]
               crc := checksum s.buf }) ∧
    (∀ s : State, s.params.bufCap < s.len + 2 → exec .append s = .next { s with err := .bufferOverflow }) ∧
    (∀ s : State, s.params.Ok → s.buf = [] →
      exec .append s = .next { s with err := .none, buf := [0xFF, 0xFF], crc := 0xFFFF#16 }) ∧
    (∀ s : State, s.len + 4 ≤ s.params.bufCap → execAll [.append, .append] s = .next
      { s with err := .none
               buf := s.buf ++ [(checksum s.buf).extractLsb' 0 8, (checksum s.buf).extractLsb' 8 8, 0x00, 0x00]
               crc := 0 }) ∧
    ∀ s : State, s.params.Ok → s.buf = [0x01, 0x03, 0x00, 0x00, 0x00, 0x01] → exec .append s = .next
      { s with err := .none, buf := [0x01, 0x03, 0x00, 0x00, 0x00, 0x01, 0x84, 0x0A], crc := 0x0A84#16 }

/-- R117 (which the spec marks derived from R101, R102 and R116): the frame builder. For a body that fits with its
checksum, CLEAR, a PUSH for each byte and APPEND leave the body followed by its checksum, low byte first, whatever the
buffer held before. -/
def Obligations.FrameBuilder : Prop :=
  ∀ (s : State) (m : List Byte), m.length + 2 ≤ s.params.bufCap →
    Completes (execAll (.clear :: m.map (fun b => .push b) ++ [.append]) s) fun t =>
      t.buf = m ++ [lo (checksum m), hi (checksum m)] ∧ t.len = m.length + 2 ∧ t.crc = checksum m ∧ t.err = .none

/-- R118: the residue law, which the spec marks "from general knowledge, not in source". -/
def Obligations.ResidueLaw : Prop :=
  ∀ s : List Byte, checksum (s ++ [lo (checksum s), hi (checksum s)]) = 0

/-- R119: flipping any one bit of any input changes the checksum, which the spec marks "from general knowledge, not in
source". -/
def Obligations.EveryBitFlipChangesTheChecksum : Prop :=
  ∀ (s : List Byte) (i : Nat) (h : i < s.length) (k : Fin 8),
    checksum (s.set i (s[i] ^^^ (1#8 <<< k.val))) ≠ checksum s

/-- R25: what each command leaves in `CRC`; and VALIDATE and DECODE do not read it either. -/
def Obligations.WhatEachCommandDoesToTheAccumulator : Prop :=
  (∀ (i : Instr) (s : State), Completes (exec i s) fun t =>
    t.crc = match i with
      | .clear => 0xFFFF#16
      | .crcInit => 0xFFFF#16
      | .crcByte b => crcStep s.crc b
      | .crcBuf => checksum s.buf
      | .append => if s.len + 2 ≤ s.params.bufCap then checksum s.buf else s.crc
      | .push _ => s.crc
      | .hdrlen => s.crc
      | .validate => s.crc
      | .decode => s.crc) ∧
    ∀ (s : State) (x : Half), ∃ t u, exec .validate s = .next t ∧ exec .decode s = .next u ∧
      exec .validate { s with crc := x } = .next { t with crc := x } ∧
      exec .decode { s with crc := x } = .next { u with crc := x }

/-! ## The frame validator (42_frame_validator.md) -/

/-- R130: the byte count is byte 2, and the expected length is 3 + byte count + 2, from 5 to 260, without wrapping. -/
def Obligations.ExpectedLengthOfAFrame : Prop :=
  ∀ (b0 b1 b : Byte) (rest : List Byte), byteCount (b0 :: b1 :: b :: rest) = b ∧
    (expectedLen b).toNat = 3 + b.toNat + 2 ∧ 5 ≤ (expectedLen b).toNat ∧ (expectedLen b).toNat ≤ 260

/-- R131: HDRLEN's word; below 3 bytes it records `SHORT_FRAME` (code 1) and leaves no header; from 3 bytes on it
extracts the byte count and the expected length, complete frame or not; in both cases the check and value groups are
cleared. -/
def Obligations.HdrlenExtractsTheHeader : Prop :=
  encode .hdrlen = 0x00000007#32 ∧ ErrCode.shortFrame.code = 1 ∧
    (∀ s : State, s.len < 3 → exec .hdrlen s = .next (s.bare .shortFrame)) ∧
    ∀ (s : State) (b0 b1 b : Byte) (rest : List Byte), s.buf = b0 :: b1 :: b :: rest →
      exec .hdrlen s = .next
        { s.bare .none with hdrv := true, bcnt := b, explen := BitVec.ofNat 9 (b.toNat + 5) }

/-- R132, R133: VALIDATE's word, and its four outcomes, under either policy. Step 1: below 5 bytes the frame is short
and no header is extracted. Step 2: below the expected length it is short and the header is kept. Step 3: otherwise the
checksum of all bytes but the last two is compared with the last two, low byte first. -/
def Obligations.ValidateChecksTheFrame : Prop :=
  encode .validate = 0x00000008#32 ∧
    (∀ s : State, s.len < 5 → exec .validate s = .next (s.bare .shortFrame)) ∧
    (∀ (s : State) (b : Byte), 5 ≤ s.len → s.buf[2]? = some b → s.len < b.toNat + 5 →
      exec .validate s = .next
        { s.bare .shortFrame with hdrv := true, bcnt := b, explen := BitVec.ofNat 9 (b.toNat + 5) }) ∧
    ∀ (s : State) (m : List Byte) (l h b : Byte),
      s.buf = m ++ [l, h] → m[2]? = some b → b.toNat + 5 ≤ s.len →
      (l = lo (checksum m) ∧ h = hi (checksum m) → exec .validate s = .next
        { s.bare .none with hdrv := true, bcnt := b, explen := BitVec.ofNat 9 (b.toNat + 5)
                            calcCrc := checksum m, rxCrc := checksum m, verdict := .matched }) ∧
      (l ≠ lo (checksum m) ∨ h ≠ hi (checksum m) → exec .validate s = .next
        { s.bare .checksumMismatch with
          hdrv := true, bcnt := b, explen := BitVec.ofNat 9 (b.toNat + 5)
          calcCrc := checksum m, rxCrc := l.setWidth 16 ||| (h.setWidth 16 <<< 8), verdict := .mismatched })

/-- R134: the validator does not look at the address or the function byte beyond their part in the checksum, so a
5-byte exception response with a code other than 0 is `SHORT_FRAME` under VALIDATE and DECODE, whatever its address,
function and checksum. -/
def Obligations.ExceptionResponsesAreShortFrames : Prop :=
  ∀ (s : State) (address function code l h : Byte), s.buf = [address, function, code, l, h] → code ≠ 0 →
    (Completes (exec .validate s) fun t => t.err = .shortFrame ∧ t.verdict = .notChecked ∧ t.tag = .absent) ∧
      Completes (exec .decode s) fun t => t.err = .shortFrame ∧ t.verdict = .notChecked ∧ t.tag = .absent

/-- R135: after a matching frame of at least the declared length, one extra byte is accepted exactly where it is 0x00,
and the checksum computed is then the high byte of the first. -/
def Obligations.OneExtraByteMatchesOnlyIfZero : Prop :=
  ∀ (s : State) (m : List Byte) (b x : Byte),
    s.buf = m ++ [lo (checksum m), hi (checksum m), x] → m[2]? = some b → b.toNat + 5 ≤ m.length + 2 →
    Completes (exec .validate s) fun t =>
      t.calcCrc = (hi (checksum m)).setWidth 16 ∧ (t.verdict = .matched ↔ x = 0) ∧ (t.verdict = .mismatched ↔ x ≠ 0)

/-! ## The decoder (43_decoder.md) -/

/-- R150, R151: the payload integers are big-endian and unsigned. -/
def Obligations.PayloadIntegersAreBigEndian : Prop :=
  (∀ a b : Byte, (decU16 [a, b]).toNat = 2 ^ 8 * a.toNat + b.toNat) ∧
    ∀ a b c d : Byte,
      (decU32 [a, b, c, d]).toNat = 2 ^ 24 * a.toNat + 2 ^ 16 * b.toNat + 2 ^ 8 * c.toNat + d.toNat

/-- R152: the filter keeps the bytes 0x00 to 0x7F, all of them, in their order, and drops every other byte with nothing
in its place. That these are the bytes ASCII cannot decode is "from general knowledge, not in source" (R152, log 10). -/
def Obligations.AsciiFilterDropsHighBytes : Prop :=
  ∀ p : List Byte, (asciiFilter p).Sublist p ∧ (∀ b ∈ asciiFilter p, b.toNat < 0x80) ∧
    (∀ b : Byte, b.toNat < 0x80 → (asciiFilter p).count b = p.count b)

/-- R153: trimming removes bytes of `T` = NUL, space, CR and LF from the two ends, as many as there are, and nothing
else: what is left neither begins nor ends with a byte of `T`, and a sequence of `T` bytes only leaves nothing. -/
def Obligations.TrimRemovesTheEndsOnly : Prop :=
  ∀ s : List Byte,
    (∃ a b : List Byte, s = a ++ trim s ++ b ∧ ∀ x ∈ a ++ b, x ∈ [0x00#8, 0x20#8, 0x0D#8, 0x0A#8]) ∧
    (∀ x, (trim s).head? = some x → x ∉ [0x00#8, 0x20#8, 0x0D#8, 0x0A#8]) ∧
    (∀ x, (trim s).getLast? = some x → x ∉ [0x00#8, 0x20#8, 0x0D#8, 0x0A#8]) ∧
    ((∀ x ∈ s, x ∈ [0x00#8, 0x20#8, 0x0D#8, 0x0A#8]) → trim s = [])

/-- R154 (marked "derived: from rules R152 and R153"): the text of an 8-byte payload is the trimmed filter: 0 to 8
bytes, each below 0x80, with no byte of `T` at either end; the filter comes first, so a `T` byte that a byte at or above
0x80 shielded is trimmed too. -/
def Obligations.AsciiTextOfEightBytes : Prop :=
  (∀ p : List Byte, p.length = 8 →
    ascii8Trim p = trim (asciiFilter p) ∧ (ascii8Trim p).length ≤ 8 ∧ (∀ x ∈ ascii8Trim p, x.toNat < 0x80) ∧
    (∀ x, (ascii8Trim p).head? = some x → x ∉ [0x00#8, 0x20#8, 0x0D#8, 0x0A#8]) ∧
    (∀ x, (ascii8Trim p).getLast? = some x → x ∉ [0x00#8, 0x20#8, 0x0D#8, 0x0A#8])) ∧
    ∀ (x : Byte) (q : List Byte), 0x80 ≤ x.toNat → ascii8Trim (x :: 0x20#8 :: q) = ascii8Trim q ∧
      ascii8Trim (q ++ [0x20#8, x]) = ascii8Trim q

/-- R155: DECODE's word, and its outcomes. A short frame is recorded as VALIDATE records it. A mismatch under the strict
policy leaves no value. Otherwise, matching or not, the payload `BUF[3 : 3+BCNT]` is decoded by its byte count: 2 and 4
bytes are big-endian integers in `VALUE`, 8 bytes are the trimmed text in `STR`, any other number is `RAW`. -/
def Obligations.DecodeDecodesTheCheckedFrame : Prop :=
  encode .decode = 0x00000009#32 ∧
    (∀ s : State, s.len < 5 → exec .decode s = .next (s.bare .shortFrame)) ∧
    (∀ (s : State) (b : Byte), 5 ≤ s.len → s.buf[2]? = some b → s.len < b.toNat + 5 →
      exec .decode s = .next
        { s.bare .shortFrame with hdrv := true, bcnt := b, explen := BitVec.ofNat 9 (b.toNat + 5) }) ∧
    ∀ (s u : State) (m p : List Byte) (l h b : Byte),
      s.buf = m ++ [l, h] → m[2]? = some b → b.toNat + 5 ≤ s.len → p = (s.buf.drop 3).take b.toNat →
      u = { s.bare (if l = lo (checksum m) ∧ h = hi (checksum m) then .none else .checksumMismatch) with
            hdrv := true, bcnt := b, explen := BitVec.ofNat 9 (b.toNat + 5), calcCrc := checksum m
            rxCrc := l.setWidth 16 ||| (h.setWidth 16 <<< 8)
            verdict := if l = lo (checksum m) ∧ h = hi (checksum m) then .matched else .mismatched } →
      exec .decode s = .next
        (if ¬ (l = lo (checksum m) ∧ h = hi (checksum m)) ∧ s.strict = true then u
        else if b = 2 then
          { u with tag := .uint16, value := BitVec.ofNat 32 (2 ^ 8 * (p.getD 0 0).toNat + (p.getD 1 0).toNat) }
        else if b = 4 then
          { u with
            tag := .uint32
            value := BitVec.ofNat 32 (2 ^ 24 * (p.getD 0 0).toNat + 2 ^ 16 * (p.getD 1 0).toNat +
              2 ^ 8 * (p.getD 2 0).toNat + (p.getD 3 0).toNat) }
        else if b = 8 then
          { u with
            tag := .ascii
            strlen := BitVec.ofNat 4 (ascii8Trim p).length
            str := Vector.ofFn fun i => (ascii8Trim p).getD i.val 0 }
        else { u with tag := .raw })

/-- R158 (marked "derived: from rule R155"): the mismatch policy as outcomes, for every state: which variant and which
code go with each verdict under each policy, and the variant by byte count where a value is returned. -/
def Obligations.MismatchPolicyOutcomes : Prop :=
  ∀ s : State, Completes (exec .decode s) fun t =>
    t.strict = s.strict ∧
    (t.verdict = .matched → t.err = .none) ∧
    (t.verdict = .mismatched → t.err = .checksumMismatch) ∧
    (t.verdict = .notChecked → t.err = .shortFrame) ∧
    (t.tag = .absent ↔ t.verdict = .notChecked ∨ (t.verdict = .mismatched ∧ s.strict = true)) ∧
    (t.tag ≠ .absent →
      (t.tag = .uint16 ↔ t.bcnt = 2) ∧ (t.tag = .uint32 ↔ t.bcnt = 4) ∧ (t.tag = .ascii ↔ t.bcnt = 8))

/-- R34, R132, R155: DECODE refines the source's `decode(response)`: from every state, what the host reads off the block
afterwards is the DecodedValue and the reason that the source's steps give for the buffer's bytes under the policy. The
view is the one right after DECODE (log 21), and the bound 128 on ASCII bytes is general knowledge (log 10). -/
def Obligations.DecodeRefinesTheSourceAlgorithm : Prop :=
  ∀ s : State, Completes (exec .decode s) fun t =>
    (t.decodedValue, t.decodeReason) = referenceDecode s.strict s.buf ∧ t.buf = s.buf

/-- R198 (marked derived from R155 and R133): a `CTRL` write takes effect for the next DECODE, and changes no `TAG` or
`ERR` already recorded; VALIDATE does not read `STRICT`. -/
def Obligations.PolicyIsReadByDecodeAlone : Prop :=
  (∀ (s : State) (v : Word), s.params.Ok →
    performAll [memWrite s.params 0x004 v, commandWrite s.params .decode] s =
      exec .decode { s with strict := v.getLsbD 0 } ∧
    Completes (perform (memWrite s.params 0x004 v) s) fun t => t.tag = s.tag ∧ t.err = s.err) ∧
    ∀ (s : State) (x : Bool), ∃ t, exec .validate s = .next t ∧
      exec .validate { s with strict := x } = .next { t with strict := x }

/-- D14 of 92_eei_decisions.md: each command's results depend on the current buffer only (DECODE's also on the policy):
no earlier result, error or accumulator shows in what HDRLEN, VALIDATE and DECODE leave. -/
def Obligations.ResultsDependOnTheBufferAlone : Prop :=
  ∀ (i : Instr) (s s' : State), i = .hdrlen ∨ i = .validate ∨ i = .decode → s.buf = s'.buf → s.strict = s'.strict →
    ∃ t t', exec i s = .next t ∧ exec i s' = .next t' ∧
      (t.err, t.verdict, t.tag, t.hdrv, t.bcnt, t.explen) =
        (t'.err, t'.verdict, t'.tag, t'.hdrv, t'.bcnt, t'.explen) ∧
      (t.calcCrc, t.rxCrc, t.value, t.strlen, t.str) = (t'.calcCrc, t'.rxCrc, t'.value, t'.strlen, t'.str)

/-- R136, R155: the receive sequence. For any address, function and payload that fit, CLEAR, the first three bytes and
HDRLEN give the number of bytes still to come; with those pushed, DECODE accepts the frame and returns the payload's
value. In the text case the bound 128 on ASCII bytes is general knowledge (log 10). -/
def Obligations.ReceiveSequenceDecodesAnyWellFormedResponse : Prop :=
  ∀ (s : State) (address function : Byte) (payload m r : List Byte),
    payload.length ≤ 255 → payload.length + 5 ≤ s.params.bufCap →
    m = address :: function :: BitVec.ofNat 8 payload.length :: payload →
    r = m ++ [lo (checksum m), hi (checksum m)] →
    ∃ t u, execAll (.clear :: (r.take 3).map (fun b => .push b) ++ [.hdrlen]) s = .next t ∧
      t.explen.toNat = r.length ∧
      execAll ((r.drop 3).map (fun b => .push b) ++ [.decode]) t = .next u ∧
      u.buf = r ∧ u.verdict = .matched ∧ u.err = .none ∧ u.decodedValue = referenceValue payload.length payload

/-! ## Errors, snapshots, invariants -/

/-- R27: the numeric codes; which commands can record which; every command writes `ERR`, whatever it held; and no host
access but a `CMD` write changes it. -/
def Obligations.ErrorCodesAndTheirWriters : Prop :=
  (ErrCode.none.code = 0 ∧ ErrCode.shortFrame.code = 1 ∧ ErrCode.checksumMismatch.code = 2 ∧
    ErrCode.illegalCommand.code = 3 ∧ ErrCode.bufferOverflow.code = 4) ∧
    (∀ (i : Instr) (s : State), Completes (exec i s) fun t =>
      t.err ≠ .illegalCommand ∧
      (t.err = .shortFrame → i = .hdrlen ∨ i = .validate ∨ i = .decode) ∧
      (t.err = .checksumMismatch → i = .validate ∨ i = .decode) ∧
      (t.err = .bufferOverflow → i = .append ∨ ∃ b, i = .push b)) ∧
    (∀ (i : Instr) (s : State) (e : ErrCode), exec i { s with err := e } = exec i s) ∧
    ∀ (s t : State) (addr bytes : Nat), (perform (.read addr bytes) s = .next t → t.err = s.err) ∧
      ∀ v, addr ≠ s.params.base → perform (.write addr bytes v) s = .next t → t.err = s.err

/-- R171, R172: the cause of every error a legal command records, exactly, and what it records beside it: an overflow
changes nothing else; a mismatch is one of the buffer's last two bytes against the checksum of the others; a short frame
is never reported as a mismatch, and each command that meets none of its causes records `NONE`. -/
def Obligations.ErrorCausesByCommand : Prop :=
  ∀ s : State,
    (∀ b, Completes (exec (.push b) s) fun t =>
      t.err = (if s.len = s.params.bufCap then .bufferOverflow else .none) ∧
      (s.len = s.params.bufCap → t = { s with err := .bufferOverflow })) ∧
    (Completes (exec .append s) fun t =>
      t.err = (if s.params.bufCap < s.len + 2 then .bufferOverflow else .none) ∧
      (s.params.bufCap < s.len + 2 → t = { s with err := .bufferOverflow })) ∧
    (Completes (exec .hdrlen s) fun t =>
      t.err = (if s.len < 3 then .shortFrame else .none) ∧ (s.len < 3 → t.hdrv = false)) ∧
    (∀ i, i = .validate ∨ i = .decode → Completes (exec i s) fun t =>
      (s.len < 5 → t.err = .shortFrame ∧ t.hdrv = false ∧ t.verdict = .notChecked ∧ t.tag = .absent) ∧
      (5 ≤ s.len → ∀ b, s.buf[2]? = some b →
        t.hdrv = true ∧ t.bcnt = b ∧ t.explen.toNat = b.toNat + 5 ∧
        (s.len < b.toNat + 5 → t.err = .shortFrame ∧ t.verdict = .notChecked ∧ t.tag = .absent) ∧
        (b.toNat + 5 ≤ s.len → ∀ l h, s.buf[s.len - 2]? = some l → s.buf[s.len - 1]? = some h →
          t.calcCrc = checksum (s.buf.take (s.len - 2)) ∧ t.rxCrc = l.setWidth 16 ||| (h.setWidth 16 <<< 8) ∧
          (t.err = .checksumMismatch ↔ l ≠ lo t.calcCrc ∨ h ≠ hi t.calcCrc) ∧
          ((t.err = .none ∧ t.verdict = .matched ∧ t.rxCrc = t.calcCrc) ∨
          (t.err = .checksumMismatch ∧ t.verdict = .mismatched ∧ t.rxCrc ≠ t.calcCrc ∧
            (i = .decode → (t.tag = .absent ↔ s.strict = true))))))) ∧
    ∀ i, i = .clear ∨ i = .crcInit ∨ i = .crcBuf ∨ (∃ b, i = .crcByte b) →
      Completes (exec i s) fun t => t.err = .none

/-- R194: results are snapshots. PUSH, APPEND and the CRC commands leave the header, check and value groups alone, and
so do illegal words and `CTRL` writes; a `RAW` payload in the buffer stays as it was under them; a CLEAR removes it. -/
def Obligations.ResultsAreSnapshots : Prop :=
  (∀ (i : Instr) (s : State),
    (∃ b, i = .push b) ∨ i = .append ∨ i = .crcInit ∨ (∃ b, i = .crcByte b) ∨ i = .crcBuf →
    Completes (exec i s) fun t =>
      (t.hdrv = s.hdrv ∧ t.bcnt = s.bcnt ∧ t.explen = s.explen) ∧
      (t.verdict = s.verdict ∧ t.calcCrc = s.calcCrc ∧ t.rxCrc = s.rxCrc) ∧
      (t.tag = s.tag ∧ t.value = s.value ∧ t.strlen = s.strlen ∧ t.str = s.str) ∧
      (3 + s.bcnt.toNat ≤ s.len → t.payload = s.payload)) ∧
    (∀ (s : State) (w : Word), s.params.Ok → ¬ LegalWord w →
      perform (memWrite s.params 0x000 w) s = .next { s with err := .illegalCommand }) ∧
    (∀ (s : State) (v : Word), s.params.Ok →
      perform (memWrite s.params 0x004 v) s = .next { s with strict := v.getLsbD 0 }) ∧
    ∀ s : State, Completes (exec .clear s) fun t => t.payload = []

/-- R35 (marked derived): every step keeps the invariants, from every state that has them, reached or not. -/
def Obligations.EveryStepKeepsTheInvariants : Prop :=
  ∀ s t : State, s.Inv → step s = .next t → t.Inv

/-- R35 (marked derived): the machine right after reset has the invariants, at every legal parameter. -/
def Obligations.ResetHasTheInvariants : Prop :=
  State.reset.Inv ∧ ∀ p : Params, p.Ok → (State.resetWith p).Inv

/-- R35 (marked derived from R48 and the command rules): the invariants hold in every reachable state: after any number
of steps of any host program from reset (log 2), at any legal parameters. -/
def Obligations.ReachableStatesHaveTheInvariants : Prop :=
  ∀ (p : Params) (es : List HostEvent) (k : Nat) (t : State), p.Ok →
    Host.Core.run Sys2Proof.core k { State.resetWith p with pending := es } = .next t → t.Inv

/-! ## What the host reads, and the assembler -/

/-- R103, R184: reading `LEN` words of the buffer window gives the host the frame's bytes, first byte first, and changes
nothing but the host's own record (log 3). -/
def Obligations.HostReadsTheFrameBack : Prop :=
  ∀ s : State, s.params.Ok → s.len ≤ s.params.bufCap →
    performAll ((List.range s.len).map fun i => memRead s.params (0x400 + 4 * i)) s =
      .next { s with returned := s.returned ++ s.buf.map fun b => b.setWidth 32 }

/-- R79, R84: the assembler takes exactly the well-formed lines, and names what is wrong with each of the others: a byte
operand out of range (R79), a window index that is not below `BUF_CAP` (R36, R81, log 22), a number of 2^32 or more after
`.word` or `WR CTRL,` (the model's choice, log 16), or malformed hex text (R84); a line it rejects emits nothing. -/
def Obligations.AssemblerTakesExactlyWellFormedLines : Prop :=
  ∀ cap : Nat,
    (∀ l : Line, l.wellFormed cap = true ↔ ∃ as, assembleLine cap l = .ok as) ∧
    (∀ b : Nat, 256 ≤ b → assembleLine cap (.push b) = .error .operandRange ∧
      assembleLine cap (.crcByte b) = .error .operandRange) ∧
    (∀ bs : List Nat, (∃ b ∈ bs, 256 ≤ b) → assembleLine cap (.pushB bs) = .error .operandRange ∧
      assembleLine cap (.rxFrame bs) = .error .operandRange) ∧
    (∀ n : Nat, 2 ^ 32 ≤ n → assembleLine cap (.word n) = .error .operandRange ∧
      assembleLine cap (.wrCtrl n) = .error .operandRange) ∧
    (∀ i : Nat, cap ≤ i → assembleLine cap (.rd (.bufw i)) = .error .operandRange) ∧
    ∀ t : List Char, t.length % 2 = 1 ∨ (∃ c ∈ t, c ∉ "0123456789abcdefABCDEF".toList) →
      assembleLine cap (.loadHex t) = .error .malformedCommand ∧ assembleLine cap (.build t) = .error .malformedCommand

/-- R84: hex text is read two characters at a time, the first the high nibble, in either case; the line expands to a PUSH
of each byte in order; the empty text emits nothing; a text of odd length, or with any other character, is rejected. -/
def Obligations.LoadHexReadsTwoDigitsAByte : Prop :=
  ∀ cap : Nat, assembleLine cap (.loadHex []) = .ok [] ∧
    (∀ t : List Char, t.length % 2 = 1 ∨ (∃ c ∈ t, c ∉ "0123456789abcdefABCDEF".toList) →
      assembleLine cap (.loadHex t) = .error .malformedCommand) ∧
    ∀ (h l : Char) (t : List Char) (a b : Nat) (as : List HostAccess),
      h ∈ "0123456789abcdefABCDEF".toList → l ∈ "0123456789abcdefABCDEF".toList →
      "0123456789abcdef".toList[a]? = some h.toLower → "0123456789abcdef".toList[b]? = some l.toLower →
      assembleLine cap (.loadHex t) = .ok as →
      assembleLine cap (.loadHex (h :: l :: t)) =
        .ok (.memWrite 0x000 (encode (.push (BitVec.ofNat 8 (16 * a + b)))) :: as)

/-- R82, R83: `PUSHB` expands to a PUSH of each byte in order, and `RXFRAME` to CLEAR and those; performed from any
state, `RXFRAME` of bytes that fit leaves a fresh buffer with exactly those bytes, and `PUSHB` appends them. -/
def Obligations.PushBytesAndReceiveFrameLines : Prop :=
  (∀ (cap : Nat) (bs : List Byte),
    assembleLine cap (.pushB (bs.map fun b => b.toNat)) = .ok (bs.map fun b => .memWrite 0x000 (encode (.push b))) ∧
    assembleLine cap (.rxFrame (bs.map fun b => b.toNat)) =
      .ok (.memWrite 0x000 0x00000001#32 :: bs.map fun b => .memWrite 0x000 (encode (.push b)))) ∧
    ∀ (s : State) (bs : List Byte), s.params.Ok →
    (bs.length ≤ s.params.bufCap → ∃ es, programEvents s.params [.rxFrame (bs.map fun b => b.toNat)] = .ok es ∧
      performAll es s = .next { s.bare .none with buf := bs, crc := 0xFFFF#16 }) ∧
    (bs ≠ [] → s.len + bs.length ≤ s.params.bufCap →
      ∃ es, programEvents s.params [.pushB (bs.map fun b => b.toNat)] = .ok es ∧
        performAll es s = .next { s with err := .none, buf := s.buf ++ bs }) ∧
    ∃ es, programEvents s.params [.pushB []] = .ok es ∧ performAll es s = .next s

/-- R85 (marked derived from R84, R101 and R116): `BUILD` of well-formed hex text is CLEAR, a PUSH of each byte and
APPEND, performed on the bus from any state. Where the command fits with its checksum, the buffer holds the command's
bytes and their checksum, `LEN` is half the text's length plus 2, and `CRC` is the checksum; where it does not fit, the
last error recorded is `BUFFER_OVERFLOW` and the frame is incomplete. -/
def Obligations.BuildLineBuildsTheFrame : Prop :=
  ∀ (s : State) (t : List Char), s.params.Ok → wellFormedHex t = true →
    ∃ bs es, hexBytes t = some bs ∧ bs.length = t.length / 2 ∧
      assembleLine s.params.bufCap (.build t) = .ok (.memWrite 0x000 0x00000001#32 ::
        (bs.map fun b => .memWrite 0x000 (encode (.push b))) ++ [.memWrite 0x000 0x00000006#32]) ∧
      programEvents s.params [.build t] = .ok es ∧
      (t.length / 2 + 2 ≤ s.params.bufCap → Completes (performAll es s) fun u =>
        u.buf = bs ++ [lo (checksum bs), hi (checksum bs)] ∧ u.len = t.length / 2 + 2 ∧ u.crc = checksum bs ∧
          u.err = .none) ∧
      (s.params.bufCap < t.length / 2 + 2 → Completes (performAll es s) fun u =>
        u.err = .bufferOverflow ∧ u.len < t.length / 2 + 2)
end

