-- ==== Sys2Proof/Laws/Assembler.lean ====
section
/-! SUPPORT. What the assembler's operand readers and lines can do: which operands they take, and that every access of
a line they take is admitted by a block of that capacity (70_reset_and_hazards.md R201). -/

namespace Sys2Proof.Machine

theorem byteOperand_cases (n : Nat) :
    (n < 2 ^ 8 ∧ byteOperand n = .ok (BitVec.ofNat 8 n)) ∨ (2 ^ 8 ≤ n ∧ byteOperand n = .error .operandRange) := by
  unfold byteOperand
  split
  · exact .inl ⟨by assumption, rfl⟩
  · exact .inr ⟨by omega, rfl⟩

theorem wordOperand_cases (n : Nat) :
    (n < 2 ^ 32 ∧ wordOperand n = .ok (BitVec.ofNat 32 n)) ∨ (2 ^ 32 ≤ n ∧ wordOperand n = .error .operandRange) := by
  unfold wordOperand
  split
  · exact .inl ⟨by assumption, rfl⟩
  · exact .inr ⟨by omega, rfl⟩

theorem registerOperand_cases (cap : Nat) (r : RegName) :
    (r.wellFormed cap = true ∧ registerOperand cap r = .ok r) ∨
      (r.wellFormed cap = false ∧ registerOperand cap r = .error .operandRange) := by
  unfold registerOperand
  cases h : r.wellFormed cap
  · exact .inr ⟨rfl, rfl⟩
  · exact .inl ⟨rfl, rfl⟩

/-- A list of byte operands is taken exactly where each is, and gives them in order. -/
theorem byteOperands_cases (ns : List Nat) :
    ((∀ n ∈ ns, n < 2 ^ 8) ∧ byteOperands ns = .ok (ns.map (BitVec.ofNat 8))) ∨
      ((∃ n ∈ ns, 2 ^ 8 ≤ n) ∧ byteOperands ns = .error .operandRange) := by
  induction ns with
  | nil => exact .inl ⟨by simp, rfl⟩
  | cons n ns ih =>
    obtain ⟨hn, en⟩ | ⟨hn, en⟩ := byteOperand_cases n
    · obtain ⟨hs, es⟩ | ⟨⟨m, hm, h⟩, es⟩ := ih
      · exact .inl ⟨by simpa using ⟨hn, hs⟩, by simp [byteOperands, en, es]⟩
      · exact .inr ⟨⟨m, List.mem_cons_of_mem n hm, h⟩, by simp [byteOperands, en, es]⟩
    · exact .inr ⟨⟨n, List.mem_cons_self, hn⟩, by simp [byteOperands, en]⟩

/-- The register map lies inside every decode range that R58 allows, at offsets that are multiples of 4. -/
theorem offsetOf_admitted (p : Params) (hp : p.Ok) (r : RegName) (hr : r.wellFormed p.bufCap = true) :
    offsetOf r % 4 = 0 ∧ offsetOf r < p.decodeRange := by
  obtain ⟨_, _, h⟩ := hp
  cases r <;> simp [offsetOf, RegName.wellFormed] at * <;> omega

/-- An access at an offset in the range that is a multiple of 4 is an admitted event. -/
theorem HostAccess.event_admitted (p : Params) (a : HostAccess) (ha : a.offset % 4 = 0) (hr : a.offset < p.decodeRange) :
    (a.event p).Admitted p := by
  cases a <;> exact ⟨Nat.le_add_right _ _, Nat.add_lt_add_left hr _, rfl, by rw [Nat.add_sub_cancel_left]; exact ha⟩

@[simp] theorem commandAccess_offset (i : Instr) : (commandAccess i).offset = 0 := rfl

theorem pushAccesses_offset (bs : List Byte) (a : HostAccess) (h : a ∈ pushAccesses bs) : a.offset = 0 := by
  simp only [pushAccesses, List.mem_map] at h
  obtain ⟨b, -, rfl⟩ := h
  rfl

/-- Every access of a line the assembler takes is at an offset of the block's own that is a multiple of 4. -/
theorem assembleLine_offset (p : Params) (hp : p.Ok) (l : Line) (as : List HostAccess)
    (h : assembleLine p.bufCap l = .ok as) (a : HostAccess) (ha : a ∈ as) :
    a.offset % 4 = 0 ∧ a.offset < p.decodeRange := by
  have zero : ∀ b : HostAccess, b.offset = 0 → b.offset % 4 = 0 ∧ b.offset < p.decodeRange := by
    intro b hb; have := hp.2.2; omega
  have push : ∀ bs : List Byte, a ∈ pushAccesses bs → a.offset = 0 := fun bs => pushAccesses_offset bs a
  cases l with
  | push n | crcByte n =>
    obtain ⟨-, e⟩ | ⟨-, e⟩ := byteOperand_cases n <;> simp [assembleLine, e, Except.map] at h
    subst h; simp at ha; subst ha; exact zero _ rfl
  | word n =>
    obtain ⟨-, e⟩ | ⟨-, e⟩ := wordOperand_cases n <;> simp [assembleLine, e, Except.map] at h
    subst h; simp at ha; subst ha; exact zero _ rfl
  | wrCtrl n =>
    obtain ⟨-, e⟩ | ⟨-, e⟩ := wordOperand_cases n <;> simp [assembleLine, e, Except.map] at h
    subst h; simp at ha; subst ha
    have := hp.2.2; show 4 % 4 = 0 ∧ 4 < p.decodeRange; omega
  | rd r =>
    obtain ⟨hr, e⟩ | ⟨-, e⟩ := registerOperand_cases p.bufCap r <;> simp [assembleLine, e, Except.map] at h
    subst h; simp at ha; subst ha; exact offsetOf_admitted p hp r hr
  | pushB ns =>
    obtain ⟨-, e⟩ | ⟨-, e⟩ := byteOperands_cases ns <;> simp [assembleLine, e, Except.map] at h
    subst h; exact zero a (push _ ha)
  | rxFrame ns =>
    obtain ⟨-, e⟩ | ⟨-, e⟩ := byteOperands_cases ns <;> simp [assembleLine, e, Except.map] at h
    subst h
    obtain rfl | ha := List.mem_cons.1 ha
    · exact zero _ rfl
    · exact zero a (push _ ha)
  | loadHex t =>
    cases e : hexBytes t <;> simp [assembleLine, e] at h
    subst h; exact zero a (push _ ha)
  | build t =>
    cases e : hexBytes t <;> simp [assembleLine, e] at h
    subst h
    obtain rfl | ha := List.mem_cons.1 ha
    · exact zero _ rfl
    · obtain ha | ha := List.mem_append.1 ha
      · exact zero a (push _ ha)
      · obtain rfl := List.mem_singleton.1 ha; exact zero _ rfl
  | clear | crcInit | crcBuf | append | hdrlen | validate | decode =>
    simp only [assembleLine, Except.ok.injEq] at h
    subst h; obtain rfl := List.mem_singleton.1 ha; exact zero _ rfl

end Sys2Proof.Machine
end

