-- ==== Sys2Proof/Laws/State.lean ====
section
/-! SUPPORT. What each field of the state is after each of its updates: one lemma per field per update, true by
unfolding, so that no later proof unfolds a record update. -/

namespace Sys2Proof.Machine

variable (s : State)

/-! ## `ERR`'s three writers are one update -/

theorem State.startCommand_eq : s.startCommand = s.setErr .none := rfl
theorem State.fail_eq (e : ErrCode) : s.fail e = s.setErr e := rfl
theorem State.warn_eq (e : ErrCode) : s.warn e = s.setErr e := rfl
theorem State.clearResults_eq : s.clearResults = s.clearHeader.clearCheck.clearValue := rfl
theorem State.len_eq : s.len = s.buf.length := rfl

/-! ## `setErr` -/

@[simp] theorem State.setErr_params (e : ErrCode) : (s.setErr e).params = s.params := rfl
@[simp] theorem State.setErr_buf (e : ErrCode) : (s.setErr e).buf = s.buf := rfl
@[simp] theorem State.setErr_crc (e : ErrCode) : (s.setErr e).crc = s.crc := rfl
@[simp] theorem State.setErr_strict (e : ErrCode) : (s.setErr e).strict = s.strict := rfl
@[simp] theorem State.setErr_err (e : ErrCode) : (s.setErr e).err = e := rfl
@[simp] theorem State.setErr_verdict (e : ErrCode) : (s.setErr e).verdict = s.verdict := rfl
@[simp] theorem State.setErr_tag (e : ErrCode) : (s.setErr e).tag = s.tag := rfl
@[simp] theorem State.setErr_hdrv (e : ErrCode) : (s.setErr e).hdrv = s.hdrv := rfl
@[simp] theorem State.setErr_bcnt (e : ErrCode) : (s.setErr e).bcnt = s.bcnt := rfl
@[simp] theorem State.setErr_explen (e : ErrCode) : (s.setErr e).explen = s.explen := rfl
@[simp] theorem State.setErr_calcCrc (e : ErrCode) : (s.setErr e).calcCrc = s.calcCrc := rfl
@[simp] theorem State.setErr_rxCrc (e : ErrCode) : (s.setErr e).rxCrc = s.rxCrc := rfl
@[simp] theorem State.setErr_value (e : ErrCode) : (s.setErr e).value = s.value := rfl
@[simp] theorem State.setErr_strlen (e : ErrCode) : (s.setErr e).strlen = s.strlen := rfl
@[simp] theorem State.setErr_str (e : ErrCode) : (s.setErr e).str = s.str := rfl
@[simp] theorem State.setErr_pending (e : ErrCode) : (s.setErr e).pending = s.pending := rfl
@[simp] theorem State.setErr_returned (e : ErrCode) : (s.setErr e).returned = s.returned := rfl

/-! ## `setCrc` -/

@[simp] theorem State.setCrc_params (c : Half) : (s.setCrc c).params = s.params := rfl
@[simp] theorem State.setCrc_buf (c : Half) : (s.setCrc c).buf = s.buf := rfl
@[simp] theorem State.setCrc_crc (c : Half) : (s.setCrc c).crc = c := rfl
@[simp] theorem State.setCrc_strict (c : Half) : (s.setCrc c).strict = s.strict := rfl
@[simp] theorem State.setCrc_err (c : Half) : (s.setCrc c).err = s.err := rfl
@[simp] theorem State.setCrc_verdict (c : Half) : (s.setCrc c).verdict = s.verdict := rfl
@[simp] theorem State.setCrc_tag (c : Half) : (s.setCrc c).tag = s.tag := rfl
@[simp] theorem State.setCrc_hdrv (c : Half) : (s.setCrc c).hdrv = s.hdrv := rfl
@[simp] theorem State.setCrc_bcnt (c : Half) : (s.setCrc c).bcnt = s.bcnt := rfl
@[simp] theorem State.setCrc_explen (c : Half) : (s.setCrc c).explen = s.explen := rfl
@[simp] theorem State.setCrc_calcCrc (c : Half) : (s.setCrc c).calcCrc = s.calcCrc := rfl
@[simp] theorem State.setCrc_rxCrc (c : Half) : (s.setCrc c).rxCrc = s.rxCrc := rfl
@[simp] theorem State.setCrc_value (c : Half) : (s.setCrc c).value = s.value := rfl
@[simp] theorem State.setCrc_strlen (c : Half) : (s.setCrc c).strlen = s.strlen := rfl
@[simp] theorem State.setCrc_str (c : Half) : (s.setCrc c).str = s.str := rfl
@[simp] theorem State.setCrc_pending (c : Half) : (s.setCrc c).pending = s.pending := rfl
@[simp] theorem State.setCrc_returned (c : Half) : (s.setCrc c).returned = s.returned := rfl

/-! ## `setStrict` -/

@[simp] theorem State.setStrict_params (b : Bool) : (s.setStrict b).params = s.params := rfl
@[simp] theorem State.setStrict_buf (b : Bool) : (s.setStrict b).buf = s.buf := rfl
@[simp] theorem State.setStrict_crc (b : Bool) : (s.setStrict b).crc = s.crc := rfl
@[simp] theorem State.setStrict_strict (b : Bool) : (s.setStrict b).strict = b := rfl
@[simp] theorem State.setStrict_err (b : Bool) : (s.setStrict b).err = s.err := rfl
@[simp] theorem State.setStrict_verdict (b : Bool) : (s.setStrict b).verdict = s.verdict := rfl
@[simp] theorem State.setStrict_tag (b : Bool) : (s.setStrict b).tag = s.tag := rfl
@[simp] theorem State.setStrict_hdrv (b : Bool) : (s.setStrict b).hdrv = s.hdrv := rfl
@[simp] theorem State.setStrict_bcnt (b : Bool) : (s.setStrict b).bcnt = s.bcnt := rfl
@[simp] theorem State.setStrict_explen (b : Bool) : (s.setStrict b).explen = s.explen := rfl
@[simp] theorem State.setStrict_calcCrc (b : Bool) : (s.setStrict b).calcCrc = s.calcCrc := rfl
@[simp] theorem State.setStrict_rxCrc (b : Bool) : (s.setStrict b).rxCrc = s.rxCrc := rfl
@[simp] theorem State.setStrict_value (b : Bool) : (s.setStrict b).value = s.value := rfl
@[simp] theorem State.setStrict_strlen (b : Bool) : (s.setStrict b).strlen = s.strlen := rfl
@[simp] theorem State.setStrict_str (b : Bool) : (s.setStrict b).str = s.str := rfl
@[simp] theorem State.setStrict_pending (b : Bool) : (s.setStrict b).pending = s.pending := rfl
@[simp] theorem State.setStrict_returned (b : Bool) : (s.setStrict b).returned = s.returned := rfl

/-! ## `setHeader` -/

@[simp] theorem State.setHeader_params (b : Byte) (e : BitVec 9) : (s.setHeader b e).params = s.params := rfl
@[simp] theorem State.setHeader_buf (b : Byte) (e : BitVec 9) : (s.setHeader b e).buf = s.buf := rfl
@[simp] theorem State.setHeader_crc (b : Byte) (e : BitVec 9) : (s.setHeader b e).crc = s.crc := rfl
@[simp] theorem State.setHeader_strict (b : Byte) (e : BitVec 9) : (s.setHeader b e).strict = s.strict := rfl
@[simp] theorem State.setHeader_err (b : Byte) (e : BitVec 9) : (s.setHeader b e).err = s.err := rfl
@[simp] theorem State.setHeader_verdict (b : Byte) (e : BitVec 9) : (s.setHeader b e).verdict = s.verdict := rfl
@[simp] theorem State.setHeader_tag (b : Byte) (e : BitVec 9) : (s.setHeader b e).tag = s.tag := rfl
@[simp] theorem State.setHeader_hdrv (b : Byte) (e : BitVec 9) : (s.setHeader b e).hdrv = true := rfl
@[simp] theorem State.setHeader_bcnt (b : Byte) (e : BitVec 9) : (s.setHeader b e).bcnt = b := rfl
@[simp] theorem State.setHeader_explen (b : Byte) (e : BitVec 9) : (s.setHeader b e).explen = e := rfl
@[simp] theorem State.setHeader_calcCrc (b : Byte) (e : BitVec 9) : (s.setHeader b e).calcCrc = s.calcCrc := rfl
@[simp] theorem State.setHeader_rxCrc (b : Byte) (e : BitVec 9) : (s.setHeader b e).rxCrc = s.rxCrc := rfl
@[simp] theorem State.setHeader_value (b : Byte) (e : BitVec 9) : (s.setHeader b e).value = s.value := rfl
@[simp] theorem State.setHeader_strlen (b : Byte) (e : BitVec 9) : (s.setHeader b e).strlen = s.strlen := rfl
@[simp] theorem State.setHeader_str (b : Byte) (e : BitVec 9) : (s.setHeader b e).str = s.str := rfl
@[simp] theorem State.setHeader_pending (b : Byte) (e : BitVec 9) : (s.setHeader b e).pending = s.pending := rfl
@[simp] theorem State.setHeader_returned (b : Byte) (e : BitVec 9) : (s.setHeader b e).returned = s.returned := rfl

/-! ## `setCheck` -/

@[simp] theorem State.setCheck_params (c r : Half) (v : Verdict) : (s.setCheck c r v).params = s.params := rfl
@[simp] theorem State.setCheck_buf (c r : Half) (v : Verdict) : (s.setCheck c r v).buf = s.buf := rfl
@[simp] theorem State.setCheck_crc (c r : Half) (v : Verdict) : (s.setCheck c r v).crc = s.crc := rfl
@[simp] theorem State.setCheck_strict (c r : Half) (v : Verdict) : (s.setCheck c r v).strict = s.strict := rfl
@[simp] theorem State.setCheck_err (c r : Half) (v : Verdict) : (s.setCheck c r v).err = s.err := rfl
@[simp] theorem State.setCheck_verdict (c r : Half) (v : Verdict) : (s.setCheck c r v).verdict = v := rfl
@[simp] theorem State.setCheck_tag (c r : Half) (v : Verdict) : (s.setCheck c r v).tag = s.tag := rfl
@[simp] theorem State.setCheck_hdrv (c r : Half) (v : Verdict) : (s.setCheck c r v).hdrv = s.hdrv := rfl
@[simp] theorem State.setCheck_bcnt (c r : Half) (v : Verdict) : (s.setCheck c r v).bcnt = s.bcnt := rfl
@[simp] theorem State.setCheck_explen (c r : Half) (v : Verdict) : (s.setCheck c r v).explen = s.explen := rfl
@[simp] theorem State.setCheck_calcCrc (c r : Half) (v : Verdict) : (s.setCheck c r v).calcCrc = c := rfl
@[simp] theorem State.setCheck_rxCrc (c r : Half) (v : Verdict) : (s.setCheck c r v).rxCrc = r := rfl
@[simp] theorem State.setCheck_value (c r : Half) (v : Verdict) : (s.setCheck c r v).value = s.value := rfl
@[simp] theorem State.setCheck_strlen (c r : Half) (v : Verdict) : (s.setCheck c r v).strlen = s.strlen := rfl
@[simp] theorem State.setCheck_str (c r : Half) (v : Verdict) : (s.setCheck c r v).str = s.str := rfl
@[simp] theorem State.setCheck_pending (c r : Half) (v : Verdict) : (s.setCheck c r v).pending = s.pending := rfl
@[simp] theorem State.setCheck_returned (c r : Half) (v : Verdict) : (s.setCheck c r v).returned = s.returned := rfl

/-! ## `setTag` -/

@[simp] theorem State.setTag_params (t : Tag) : (s.setTag t).params = s.params := rfl
@[simp] theorem State.setTag_buf (t : Tag) : (s.setTag t).buf = s.buf := rfl
@[simp] theorem State.setTag_crc (t : Tag) : (s.setTag t).crc = s.crc := rfl
@[simp] theorem State.setTag_strict (t : Tag) : (s.setTag t).strict = s.strict := rfl
@[simp] theorem State.setTag_err (t : Tag) : (s.setTag t).err = s.err := rfl
@[simp] theorem State.setTag_verdict (t : Tag) : (s.setTag t).verdict = s.verdict := rfl
@[simp] theorem State.setTag_tag (t : Tag) : (s.setTag t).tag = t := rfl
@[simp] theorem State.setTag_hdrv (t : Tag) : (s.setTag t).hdrv = s.hdrv := rfl
@[simp] theorem State.setTag_bcnt (t : Tag) : (s.setTag t).bcnt = s.bcnt := rfl
@[simp] theorem State.setTag_explen (t : Tag) : (s.setTag t).explen = s.explen := rfl
@[simp] theorem State.setTag_calcCrc (t : Tag) : (s.setTag t).calcCrc = s.calcCrc := rfl
@[simp] theorem State.setTag_rxCrc (t : Tag) : (s.setTag t).rxCrc = s.rxCrc := rfl
@[simp] theorem State.setTag_value (t : Tag) : (s.setTag t).value = s.value := rfl
@[simp] theorem State.setTag_strlen (t : Tag) : (s.setTag t).strlen = s.strlen := rfl
@[simp] theorem State.setTag_str (t : Tag) : (s.setTag t).str = s.str := rfl
@[simp] theorem State.setTag_pending (t : Tag) : (s.setTag t).pending = s.pending := rfl
@[simp] theorem State.setTag_returned (t : Tag) : (s.setTag t).returned = s.returned := rfl

/-! ## `setValue` -/

@[simp] theorem State.setValue_params (v : Word) : (s.setValue v).params = s.params := rfl
@[simp] theorem State.setValue_buf (v : Word) : (s.setValue v).buf = s.buf := rfl
@[simp] theorem State.setValue_crc (v : Word) : (s.setValue v).crc = s.crc := rfl
@[simp] theorem State.setValue_strict (v : Word) : (s.setValue v).strict = s.strict := rfl
@[simp] theorem State.setValue_err (v : Word) : (s.setValue v).err = s.err := rfl
@[simp] theorem State.setValue_verdict (v : Word) : (s.setValue v).verdict = s.verdict := rfl
@[simp] theorem State.setValue_tag (v : Word) : (s.setValue v).tag = s.tag := rfl
@[simp] theorem State.setValue_hdrv (v : Word) : (s.setValue v).hdrv = s.hdrv := rfl
@[simp] theorem State.setValue_bcnt (v : Word) : (s.setValue v).bcnt = s.bcnt := rfl
@[simp] theorem State.setValue_explen (v : Word) : (s.setValue v).explen = s.explen := rfl
@[simp] theorem State.setValue_calcCrc (v : Word) : (s.setValue v).calcCrc = s.calcCrc := rfl
@[simp] theorem State.setValue_rxCrc (v : Word) : (s.setValue v).rxCrc = s.rxCrc := rfl
@[simp] theorem State.setValue_value (v : Word) : (s.setValue v).value = v := rfl
@[simp] theorem State.setValue_strlen (v : Word) : (s.setValue v).strlen = s.strlen := rfl
@[simp] theorem State.setValue_str (v : Word) : (s.setValue v).str = s.str := rfl
@[simp] theorem State.setValue_pending (v : Word) : (s.setValue v).pending = s.pending := rfl
@[simp] theorem State.setValue_returned (v : Word) : (s.setValue v).returned = s.returned := rfl

/-! ## `setString` -/

@[simp] theorem State.setString_params (t : List Byte) : (s.setString t).params = s.params := rfl
@[simp] theorem State.setString_buf (t : List Byte) : (s.setString t).buf = s.buf := rfl
@[simp] theorem State.setString_crc (t : List Byte) : (s.setString t).crc = s.crc := rfl
@[simp] theorem State.setString_strict (t : List Byte) : (s.setString t).strict = s.strict := rfl
@[simp] theorem State.setString_err (t : List Byte) : (s.setString t).err = s.err := rfl
@[simp] theorem State.setString_verdict (t : List Byte) : (s.setString t).verdict = s.verdict := rfl
@[simp] theorem State.setString_tag (t : List Byte) : (s.setString t).tag = s.tag := rfl
@[simp] theorem State.setString_hdrv (t : List Byte) : (s.setString t).hdrv = s.hdrv := rfl
@[simp] theorem State.setString_bcnt (t : List Byte) : (s.setString t).bcnt = s.bcnt := rfl
@[simp] theorem State.setString_explen (t : List Byte) : (s.setString t).explen = s.explen := rfl
@[simp] theorem State.setString_calcCrc (t : List Byte) : (s.setString t).calcCrc = s.calcCrc := rfl
@[simp] theorem State.setString_rxCrc (t : List Byte) : (s.setString t).rxCrc = s.rxCrc := rfl
@[simp] theorem State.setString_value (t : List Byte) : (s.setString t).value = s.value := rfl
@[simp] theorem State.setString_strlen (t : List Byte) : (s.setString t).strlen = BitVec.ofNat 4 t.length := rfl
@[simp] theorem State.setString_str (t : List Byte) : (s.setString t).str = Vector.ofFn fun i => if h : i.val < t.length then t[i.val] else s.str[i] := rfl
@[simp] theorem State.setString_pending (t : List Byte) : (s.setString t).pending = s.pending := rfl
@[simp] theorem State.setString_returned (t : List Byte) : (s.setString t).returned = s.returned := rfl

/-! ## `clearHeader` -/

@[simp] theorem State.clearHeader_params : s.clearHeader.params = s.params := rfl
@[simp] theorem State.clearHeader_buf : s.clearHeader.buf = s.buf := rfl
@[simp] theorem State.clearHeader_crc : s.clearHeader.crc = s.crc := rfl
@[simp] theorem State.clearHeader_strict : s.clearHeader.strict = s.strict := rfl
@[simp] theorem State.clearHeader_err : s.clearHeader.err = s.err := rfl
@[simp] theorem State.clearHeader_verdict : s.clearHeader.verdict = s.verdict := rfl
@[simp] theorem State.clearHeader_tag : s.clearHeader.tag = s.tag := rfl
@[simp] theorem State.clearHeader_hdrv : s.clearHeader.hdrv = false := rfl
@[simp] theorem State.clearHeader_bcnt : s.clearHeader.bcnt = 0 := rfl
@[simp] theorem State.clearHeader_explen : s.clearHeader.explen = 0 := rfl
@[simp] theorem State.clearHeader_calcCrc : s.clearHeader.calcCrc = s.calcCrc := rfl
@[simp] theorem State.clearHeader_rxCrc : s.clearHeader.rxCrc = s.rxCrc := rfl
@[simp] theorem State.clearHeader_value : s.clearHeader.value = s.value := rfl
@[simp] theorem State.clearHeader_strlen : s.clearHeader.strlen = s.strlen := rfl
@[simp] theorem State.clearHeader_str : s.clearHeader.str = s.str := rfl
@[simp] theorem State.clearHeader_pending : s.clearHeader.pending = s.pending := rfl
@[simp] theorem State.clearHeader_returned : s.clearHeader.returned = s.returned := rfl

/-! ## `clearCheck` -/

@[simp] theorem State.clearCheck_params : s.clearCheck.params = s.params := rfl
@[simp] theorem State.clearCheck_buf : s.clearCheck.buf = s.buf := rfl
@[simp] theorem State.clearCheck_crc : s.clearCheck.crc = s.crc := rfl
@[simp] theorem State.clearCheck_strict : s.clearCheck.strict = s.strict := rfl
@[simp] theorem State.clearCheck_err : s.clearCheck.err = s.err := rfl
@[simp] theorem State.clearCheck_verdict : s.clearCheck.verdict = .notChecked := rfl
@[simp] theorem State.clearCheck_tag : s.clearCheck.tag = s.tag := rfl
@[simp] theorem State.clearCheck_hdrv : s.clearCheck.hdrv = s.hdrv := rfl
@[simp] theorem State.clearCheck_bcnt : s.clearCheck.bcnt = s.bcnt := rfl
@[simp] theorem State.clearCheck_explen : s.clearCheck.explen = s.explen := rfl
@[simp] theorem State.clearCheck_calcCrc : s.clearCheck.calcCrc = 0 := rfl
@[simp] theorem State.clearCheck_rxCrc : s.clearCheck.rxCrc = 0 := rfl
@[simp] theorem State.clearCheck_value : s.clearCheck.value = s.value := rfl
@[simp] theorem State.clearCheck_strlen : s.clearCheck.strlen = s.strlen := rfl
@[simp] theorem State.clearCheck_str : s.clearCheck.str = s.str := rfl
@[simp] theorem State.clearCheck_pending : s.clearCheck.pending = s.pending := rfl
@[simp] theorem State.clearCheck_returned : s.clearCheck.returned = s.returned := rfl

/-! ## `clearValue` -/

@[simp] theorem State.clearValue_params : s.clearValue.params = s.params := rfl
@[simp] theorem State.clearValue_buf : s.clearValue.buf = s.buf := rfl
@[simp] theorem State.clearValue_crc : s.clearValue.crc = s.crc := rfl
@[simp] theorem State.clearValue_strict : s.clearValue.strict = s.strict := rfl
@[simp] theorem State.clearValue_err : s.clearValue.err = s.err := rfl
@[simp] theorem State.clearValue_verdict : s.clearValue.verdict = s.verdict := rfl
@[simp] theorem State.clearValue_tag : s.clearValue.tag = .absent := rfl
@[simp] theorem State.clearValue_hdrv : s.clearValue.hdrv = s.hdrv := rfl
@[simp] theorem State.clearValue_bcnt : s.clearValue.bcnt = s.bcnt := rfl
@[simp] theorem State.clearValue_explen : s.clearValue.explen = s.explen := rfl
@[simp] theorem State.clearValue_calcCrc : s.clearValue.calcCrc = s.calcCrc := rfl
@[simp] theorem State.clearValue_rxCrc : s.clearValue.rxCrc = s.rxCrc := rfl
@[simp] theorem State.clearValue_value : s.clearValue.value = 0 := rfl
@[simp] theorem State.clearValue_strlen : s.clearValue.strlen = 0 := rfl
@[simp] theorem State.clearValue_str : s.clearValue.str = Vector.replicate 8 0 := rfl
@[simp] theorem State.clearValue_pending : s.clearValue.pending = s.pending := rfl
@[simp] theorem State.clearValue_returned : s.clearValue.returned = s.returned := rfl

/-! ## `appendBytes` -/

@[simp] theorem State.appendBytes_params (bs : List Byte) : (s.appendBytes bs).params = s.params := rfl
@[simp] theorem State.appendBytes_buf (bs : List Byte) : (s.appendBytes bs).buf = s.buf ++ bs := rfl
@[simp] theorem State.appendBytes_crc (bs : List Byte) : (s.appendBytes bs).crc = s.crc := rfl
@[simp] theorem State.appendBytes_strict (bs : List Byte) : (s.appendBytes bs).strict = s.strict := rfl
@[simp] theorem State.appendBytes_err (bs : List Byte) : (s.appendBytes bs).err = s.err := rfl
@[simp] theorem State.appendBytes_verdict (bs : List Byte) : (s.appendBytes bs).verdict = s.verdict := rfl
@[simp] theorem State.appendBytes_tag (bs : List Byte) : (s.appendBytes bs).tag = s.tag := rfl
@[simp] theorem State.appendBytes_hdrv (bs : List Byte) : (s.appendBytes bs).hdrv = s.hdrv := rfl
@[simp] theorem State.appendBytes_bcnt (bs : List Byte) : (s.appendBytes bs).bcnt = s.bcnt := rfl
@[simp] theorem State.appendBytes_explen (bs : List Byte) : (s.appendBytes bs).explen = s.explen := rfl
@[simp] theorem State.appendBytes_calcCrc (bs : List Byte) : (s.appendBytes bs).calcCrc = s.calcCrc := rfl
@[simp] theorem State.appendBytes_rxCrc (bs : List Byte) : (s.appendBytes bs).rxCrc = s.rxCrc := rfl
@[simp] theorem State.appendBytes_value (bs : List Byte) : (s.appendBytes bs).value = s.value := rfl
@[simp] theorem State.appendBytes_strlen (bs : List Byte) : (s.appendBytes bs).strlen = s.strlen := rfl
@[simp] theorem State.appendBytes_str (bs : List Byte) : (s.appendBytes bs).str = s.str := rfl
@[simp] theorem State.appendBytes_pending (bs : List Byte) : (s.appendBytes bs).pending = s.pending := rfl
@[simp] theorem State.appendBytes_returned (bs : List Byte) : (s.appendBytes bs).returned = s.returned := rfl

/-! ## `emptyBuffer` -/

@[simp] theorem State.emptyBuffer_params : s.emptyBuffer.params = s.params := rfl
@[simp] theorem State.emptyBuffer_buf : s.emptyBuffer.buf = [] := rfl
@[simp] theorem State.emptyBuffer_crc : s.emptyBuffer.crc = s.crc := rfl
@[simp] theorem State.emptyBuffer_strict : s.emptyBuffer.strict = s.strict := rfl
@[simp] theorem State.emptyBuffer_err : s.emptyBuffer.err = s.err := rfl
@[simp] theorem State.emptyBuffer_verdict : s.emptyBuffer.verdict = s.verdict := rfl
@[simp] theorem State.emptyBuffer_tag : s.emptyBuffer.tag = s.tag := rfl
@[simp] theorem State.emptyBuffer_hdrv : s.emptyBuffer.hdrv = s.hdrv := rfl
@[simp] theorem State.emptyBuffer_bcnt : s.emptyBuffer.bcnt = s.bcnt := rfl
@[simp] theorem State.emptyBuffer_explen : s.emptyBuffer.explen = s.explen := rfl
@[simp] theorem State.emptyBuffer_calcCrc : s.emptyBuffer.calcCrc = s.calcCrc := rfl
@[simp] theorem State.emptyBuffer_rxCrc : s.emptyBuffer.rxCrc = s.rxCrc := rfl
@[simp] theorem State.emptyBuffer_value : s.emptyBuffer.value = s.value := rfl
@[simp] theorem State.emptyBuffer_strlen : s.emptyBuffer.strlen = s.strlen := rfl
@[simp] theorem State.emptyBuffer_str : s.emptyBuffer.str = s.str := rfl
@[simp] theorem State.emptyBuffer_pending : s.emptyBuffer.pending = s.pending := rfl
@[simp] theorem State.emptyBuffer_returned : s.emptyBuffer.returned = s.returned := rfl

/-! ## `returnWord` -/

@[simp] theorem State.returnWord_params (v : Word) : (s.returnWord v).params = s.params := rfl
@[simp] theorem State.returnWord_buf (v : Word) : (s.returnWord v).buf = s.buf := rfl
@[simp] theorem State.returnWord_crc (v : Word) : (s.returnWord v).crc = s.crc := rfl
@[simp] theorem State.returnWord_strict (v : Word) : (s.returnWord v).strict = s.strict := rfl
@[simp] theorem State.returnWord_err (v : Word) : (s.returnWord v).err = s.err := rfl
@[simp] theorem State.returnWord_verdict (v : Word) : (s.returnWord v).verdict = s.verdict := rfl
@[simp] theorem State.returnWord_tag (v : Word) : (s.returnWord v).tag = s.tag := rfl
@[simp] theorem State.returnWord_hdrv (v : Word) : (s.returnWord v).hdrv = s.hdrv := rfl
@[simp] theorem State.returnWord_bcnt (v : Word) : (s.returnWord v).bcnt = s.bcnt := rfl
@[simp] theorem State.returnWord_explen (v : Word) : (s.returnWord v).explen = s.explen := rfl
@[simp] theorem State.returnWord_calcCrc (v : Word) : (s.returnWord v).calcCrc = s.calcCrc := rfl
@[simp] theorem State.returnWord_rxCrc (v : Word) : (s.returnWord v).rxCrc = s.rxCrc := rfl
@[simp] theorem State.returnWord_value (v : Word) : (s.returnWord v).value = s.value := rfl
@[simp] theorem State.returnWord_strlen (v : Word) : (s.returnWord v).strlen = s.strlen := rfl
@[simp] theorem State.returnWord_str (v : Word) : (s.returnWord v).str = s.str := rfl
@[simp] theorem State.returnWord_pending (v : Word) : (s.returnWord v).pending = s.pending := rfl
@[simp] theorem State.returnWord_returned (v : Word) : (s.returnWord v).returned = s.returned ++ [v] := rfl

/-! ## `takeEvent` -/

@[simp] theorem State.takeEvent_params (r : List HostEvent) : (s.takeEvent r).params = s.params := rfl
@[simp] theorem State.takeEvent_buf (r : List HostEvent) : (s.takeEvent r).buf = s.buf := rfl
@[simp] theorem State.takeEvent_crc (r : List HostEvent) : (s.takeEvent r).crc = s.crc := rfl
@[simp] theorem State.takeEvent_strict (r : List HostEvent) : (s.takeEvent r).strict = s.strict := rfl
@[simp] theorem State.takeEvent_err (r : List HostEvent) : (s.takeEvent r).err = s.err := rfl
@[simp] theorem State.takeEvent_verdict (r : List HostEvent) : (s.takeEvent r).verdict = s.verdict := rfl
@[simp] theorem State.takeEvent_tag (r : List HostEvent) : (s.takeEvent r).tag = s.tag := rfl
@[simp] theorem State.takeEvent_hdrv (r : List HostEvent) : (s.takeEvent r).hdrv = s.hdrv := rfl
@[simp] theorem State.takeEvent_bcnt (r : List HostEvent) : (s.takeEvent r).bcnt = s.bcnt := rfl
@[simp] theorem State.takeEvent_explen (r : List HostEvent) : (s.takeEvent r).explen = s.explen := rfl
@[simp] theorem State.takeEvent_calcCrc (r : List HostEvent) : (s.takeEvent r).calcCrc = s.calcCrc := rfl
@[simp] theorem State.takeEvent_rxCrc (r : List HostEvent) : (s.takeEvent r).rxCrc = s.rxCrc := rfl
@[simp] theorem State.takeEvent_value (r : List HostEvent) : (s.takeEvent r).value = s.value := rfl
@[simp] theorem State.takeEvent_strlen (r : List HostEvent) : (s.takeEvent r).strlen = s.strlen := rfl
@[simp] theorem State.takeEvent_str (r : List HostEvent) : (s.takeEvent r).str = s.str := rfl
@[simp] theorem State.takeEvent_pending (r : List HostEvent) : (s.takeEvent r).pending = r := rfl
@[simp] theorem State.takeEvent_returned (r : List HostEvent) : (s.takeEvent r).returned = s.returned := rfl

/-! ## `resetBlock` -/

@[simp] theorem State.resetBlock_params : s.resetBlock.params = s.params := rfl
@[simp] theorem State.resetBlock_buf : s.resetBlock.buf = [] := rfl
@[simp] theorem State.resetBlock_crc : s.resetBlock.crc = 0xFFFF#16 := rfl
@[simp] theorem State.resetBlock_strict : s.resetBlock.strict = false := rfl
@[simp] theorem State.resetBlock_err : s.resetBlock.err = .none := rfl
@[simp] theorem State.resetBlock_verdict : s.resetBlock.verdict = .notChecked := rfl
@[simp] theorem State.resetBlock_tag : s.resetBlock.tag = .absent := rfl
@[simp] theorem State.resetBlock_hdrv : s.resetBlock.hdrv = false := rfl
@[simp] theorem State.resetBlock_bcnt : s.resetBlock.bcnt = 0 := rfl
@[simp] theorem State.resetBlock_explen : s.resetBlock.explen = 0 := rfl
@[simp] theorem State.resetBlock_calcCrc : s.resetBlock.calcCrc = 0 := rfl
@[simp] theorem State.resetBlock_rxCrc : s.resetBlock.rxCrc = 0 := rfl
@[simp] theorem State.resetBlock_value : s.resetBlock.value = 0 := rfl
@[simp] theorem State.resetBlock_strlen : s.resetBlock.strlen = 0 := rfl
@[simp] theorem State.resetBlock_str : s.resetBlock.str = Vector.replicate 8 0 := rfl
@[simp] theorem State.resetBlock_pending : s.resetBlock.pending = s.pending := rfl
@[simp] theorem State.resetBlock_returned : s.resetBlock.returned = s.returned := rfl

/-! ## `startCommand` -/

@[simp] theorem State.startCommand_params : s.startCommand.params = s.params := rfl
@[simp] theorem State.startCommand_buf : s.startCommand.buf = s.buf := rfl
@[simp] theorem State.startCommand_crc : s.startCommand.crc = s.crc := rfl
@[simp] theorem State.startCommand_strict : s.startCommand.strict = s.strict := rfl
@[simp] theorem State.startCommand_err : s.startCommand.err = .none := rfl
@[simp] theorem State.startCommand_verdict : s.startCommand.verdict = s.verdict := rfl
@[simp] theorem State.startCommand_tag : s.startCommand.tag = s.tag := rfl
@[simp] theorem State.startCommand_hdrv : s.startCommand.hdrv = s.hdrv := rfl
@[simp] theorem State.startCommand_bcnt : s.startCommand.bcnt = s.bcnt := rfl
@[simp] theorem State.startCommand_explen : s.startCommand.explen = s.explen := rfl
@[simp] theorem State.startCommand_calcCrc : s.startCommand.calcCrc = s.calcCrc := rfl
@[simp] theorem State.startCommand_rxCrc : s.startCommand.rxCrc = s.rxCrc := rfl
@[simp] theorem State.startCommand_value : s.startCommand.value = s.value := rfl
@[simp] theorem State.startCommand_strlen : s.startCommand.strlen = s.strlen := rfl
@[simp] theorem State.startCommand_str : s.startCommand.str = s.str := rfl
@[simp] theorem State.startCommand_pending : s.startCommand.pending = s.pending := rfl
@[simp] theorem State.startCommand_returned : s.startCommand.returned = s.returned := rfl

/-! ## `fail` -/

@[simp] theorem State.fail_params (e : ErrCode) : (s.fail e).params = s.params := rfl
@[simp] theorem State.fail_buf (e : ErrCode) : (s.fail e).buf = s.buf := rfl
@[simp] theorem State.fail_crc (e : ErrCode) : (s.fail e).crc = s.crc := rfl
@[simp] theorem State.fail_strict (e : ErrCode) : (s.fail e).strict = s.strict := rfl
@[simp] theorem State.fail_err (e : ErrCode) : (s.fail e).err = e := rfl
@[simp] theorem State.fail_verdict (e : ErrCode) : (s.fail e).verdict = s.verdict := rfl
@[simp] theorem State.fail_tag (e : ErrCode) : (s.fail e).tag = s.tag := rfl
@[simp] theorem State.fail_hdrv (e : ErrCode) : (s.fail e).hdrv = s.hdrv := rfl
@[simp] theorem State.fail_bcnt (e : ErrCode) : (s.fail e).bcnt = s.bcnt := rfl
@[simp] theorem State.fail_explen (e : ErrCode) : (s.fail e).explen = s.explen := rfl
@[simp] theorem State.fail_calcCrc (e : ErrCode) : (s.fail e).calcCrc = s.calcCrc := rfl
@[simp] theorem State.fail_rxCrc (e : ErrCode) : (s.fail e).rxCrc = s.rxCrc := rfl
@[simp] theorem State.fail_value (e : ErrCode) : (s.fail e).value = s.value := rfl
@[simp] theorem State.fail_strlen (e : ErrCode) : (s.fail e).strlen = s.strlen := rfl
@[simp] theorem State.fail_str (e : ErrCode) : (s.fail e).str = s.str := rfl
@[simp] theorem State.fail_pending (e : ErrCode) : (s.fail e).pending = s.pending := rfl
@[simp] theorem State.fail_returned (e : ErrCode) : (s.fail e).returned = s.returned := rfl

/-! ## `warn` -/

@[simp] theorem State.warn_params (e : ErrCode) : (s.warn e).params = s.params := rfl
@[simp] theorem State.warn_buf (e : ErrCode) : (s.warn e).buf = s.buf := rfl
@[simp] theorem State.warn_crc (e : ErrCode) : (s.warn e).crc = s.crc := rfl
@[simp] theorem State.warn_strict (e : ErrCode) : (s.warn e).strict = s.strict := rfl
@[simp] theorem State.warn_err (e : ErrCode) : (s.warn e).err = e := rfl
@[simp] theorem State.warn_verdict (e : ErrCode) : (s.warn e).verdict = s.verdict := rfl
@[simp] theorem State.warn_tag (e : ErrCode) : (s.warn e).tag = s.tag := rfl
@[simp] theorem State.warn_hdrv (e : ErrCode) : (s.warn e).hdrv = s.hdrv := rfl
@[simp] theorem State.warn_bcnt (e : ErrCode) : (s.warn e).bcnt = s.bcnt := rfl
@[simp] theorem State.warn_explen (e : ErrCode) : (s.warn e).explen = s.explen := rfl
@[simp] theorem State.warn_calcCrc (e : ErrCode) : (s.warn e).calcCrc = s.calcCrc := rfl
@[simp] theorem State.warn_rxCrc (e : ErrCode) : (s.warn e).rxCrc = s.rxCrc := rfl
@[simp] theorem State.warn_value (e : ErrCode) : (s.warn e).value = s.value := rfl
@[simp] theorem State.warn_strlen (e : ErrCode) : (s.warn e).strlen = s.strlen := rfl
@[simp] theorem State.warn_str (e : ErrCode) : (s.warn e).str = s.str := rfl
@[simp] theorem State.warn_pending (e : ErrCode) : (s.warn e).pending = s.pending := rfl
@[simp] theorem State.warn_returned (e : ErrCode) : (s.warn e).returned = s.returned := rfl

/-! ## `clearResults` -/

@[simp] theorem State.clearResults_params : s.clearResults.params = s.params := rfl
@[simp] theorem State.clearResults_buf : s.clearResults.buf = s.buf := rfl
@[simp] theorem State.clearResults_crc : s.clearResults.crc = s.crc := rfl
@[simp] theorem State.clearResults_strict : s.clearResults.strict = s.strict := rfl
@[simp] theorem State.clearResults_err : s.clearResults.err = s.err := rfl
@[simp] theorem State.clearResults_verdict : s.clearResults.verdict = .notChecked := rfl
@[simp] theorem State.clearResults_tag : s.clearResults.tag = .absent := rfl
@[simp] theorem State.clearResults_hdrv : s.clearResults.hdrv = false := rfl
@[simp] theorem State.clearResults_bcnt : s.clearResults.bcnt = 0 := rfl
@[simp] theorem State.clearResults_explen : s.clearResults.explen = 0 := rfl
@[simp] theorem State.clearResults_calcCrc : s.clearResults.calcCrc = 0 := rfl
@[simp] theorem State.clearResults_rxCrc : s.clearResults.rxCrc = 0 := rfl
@[simp] theorem State.clearResults_value : s.clearResults.value = 0 := rfl
@[simp] theorem State.clearResults_strlen : s.clearResults.strlen = 0 := rfl
@[simp] theorem State.clearResults_str : s.clearResults.str = Vector.replicate 8 0 := rfl
@[simp] theorem State.clearResults_pending : s.clearResults.pending = s.pending := rfl
@[simp] theorem State.clearResults_returned : s.clearResults.returned = s.returned := rfl

end Sys2Proof.Machine
end

