-- ==== Sys2Proof/Laws/Memory.lean ====
section
/-! SUPPORT. The frame buffer's laws: a byte appended reads back, every earlier byte reads as before (10_state.md
R23), and every operation that changes the buffer keeps its canonical form (R24). -/

namespace Sys2Proof.Machine

theorem Memory.wf_iff (cap : Nat) (m : Memory) : Memory.wf cap m = true ↔ m.length ≤ cap := by
  simp [Memory.wf]

/-- A byte below `LEN` reads as before an append. -/
theorem Memory.read?_append_left (m bs : Memory) (i : Nat) (h : i < m.length) :
    Memory.read? (m ++ bs) i = Memory.read? m i := by
  simp [Memory.read?, List.getElem?_append_left h]

/-- The appended bytes read back, from index `LEN` up. -/
theorem Memory.read?_append_right (m bs : Memory) (i : Nat) (h : m.length ≤ i) :
    Memory.read? (m ++ bs) i = Memory.read? bs (i - m.length) := by
  simp [Memory.read?, List.getElem?_append_right h]

/-- A byte exists exactly at the indices below `LEN` (R23). -/
theorem Memory.read?_eq_none_iff (m : Memory) (i : Nat) : Memory.read? m i = none ↔ m.length ≤ i := by
  simp [Memory.read?]

/-- A guarded read is the byte itself: the 0 past the end plays no part (log 9). -/
theorem byteAt_eq_getElem (m : List Byte) (i : Nat) (h : i < m.length) : byteAt m i = m[i] := by
  simp [byteAt, List.getD_eq_getElem?_getD, h]

/-- A guarded read is `read?`. -/
theorem read?_eq_byteAt (m : Memory) (i : Nat) (h : i < m.length) : Memory.read? m i = some (byteAt m i) := by
  simp [Memory.read?, byteAt_eq_getElem m i h, h]

theorem slice_length (m : List Byte) (a b : Nat) (h : b ≤ m.length) : (slice m a b).length = b - a := by
  simp [slice]; omega

@[simp] theorem slice_all (m : List Byte) : slice m 0 m.length = m := by simp [slice]

theorem slice_from_zero (m : List Byte) (n : Nat) : slice m 0 n = m.take n := by simp [slice]

/-- The cell view's addresses rise strictly, from 0. -/
theorem Memory.cells_rising (m : Memory) : (Memory.cells m).Pairwise fun a b => a.1 < b.1 := by
  rw [Memory.cells, List.pairwise_iff_getElem]
  intro i j hi hj hij
  simpa using hij

/-- Two buffers with the same cells are the same buffer. -/
theorem Memory.cells_injective (m n : Memory) (h : Memory.cells m = Memory.cells n) : m = n := by
  have := congrArg (List.map Prod.snd) h
  simpa [Memory.cells, List.mapIdx_eq_zipIdx_map, Function.comp_def] using this

theorem State.emptyBuffer_wf (s : State) (cap : Nat) : Memory.wf cap s.emptyBuffer.buf = true := by
  simp [Memory.wf]

theorem State.resetBlock_wf (s : State) (cap : Nat) : Memory.wf cap s.resetBlock.buf = true := by
  simp [Memory.wf]

/-- An append that the capacity test lets through keeps the form (40_frame_buffer.md R102, 41_crc_generator.md
R116). -/
theorem State.appendBytes_wf (s : State) (bs : List Byte) (cap : Nat) (h : s.len + bs.length ≤ cap) :
    Memory.wf cap (s.appendBytes bs).buf = true := by
  simpa [Memory.wf, State.len] using h

theorem State.reset_wf : Memory.wf State.reset.params.bufCap State.reset.buf = true := by decide

end Sys2Proof.Machine
end

