-- ==== Sys2Proof/Laws/Ops.lean ====
section
/-! SUPPORT. One lemma per shared operation that says what it can do; proofs about the commands cite these and do not
unfold the operations. -/

namespace Sys2Proof.Machine

/-! ## Operand forms -/

@[simp] theorem lo_halfOf (l h : Byte) : lo (halfOf l h) = l := by
  apply BitVec.eq_of_getLsbD_eq; intro i hi
  simp only [lo, halfOf, BitVec.getLsbD_extractLsb', BitVec.getLsbD_or, BitVec.getLsbD_setWidth,
    BitVec.getLsbD_shiftLeft]
  simp [hi]
  omega

@[simp] theorem hi_halfOf (l h : Byte) : hi (halfOf l h) = h := by
  apply BitVec.eq_of_getLsbD_eq; intro i hi'
  simp only [hi, halfOf, BitVec.getLsbD_extractLsb', BitVec.getLsbD_or, BitVec.getLsbD_setWidth,
    BitVec.getLsbD_shiftLeft]
  have h1 : (8 + i < 16) := by omega
  have h2 : ¬ (8 + i < 8) := by omega
  simp [hi', h1, h2]
  intros; omega

/-- A halfword is its two bytes put together. -/
@[simp] theorem halfOf_lo_hi (c : Half) : halfOf (lo c) (hi c) = c := by
  apply BitVec.eq_of_getLsbD_eq; intro i hi'
  simp only [lo, hi, halfOf, BitVec.getLsbD_extractLsb', BitVec.getLsbD_or, BitVec.getLsbD_setWidth,
    BitVec.getLsbD_shiftLeft]
  by_cases h : i < 8
  · simp [h, hi']
  · have h3 : i - 8 < 8 := by omega
    have h4 : 8 + (i - 8) = i := by omega
    simp [h, hi', h3, h4]
    intros; omega

/-- `EXPLEN` does not wrap: it is `BCNT` + 5 exactly (43_decoder.md R160). -/
@[simp] theorem expectedLen_toNat (b : Byte) : (expectedLen b).toNat = b.toNat + 5 := by
  have := b.isLt
  simp only [expectedLen, BitVec.toNat_add, BitVec.toNat_setWidth, BitVec.toNat_ofNat]
  omega

/-! ## The frame check (42_frame_validator.md R132) -/

section
variable (s : State)

@[simp] theorem State.extractHeader_params : s.extractHeader.params = s.params := rfl
@[simp] theorem State.extractHeader_buf : s.extractHeader.buf = s.buf := rfl
@[simp] theorem State.extractHeader_crc : s.extractHeader.crc = s.crc := rfl
@[simp] theorem State.extractHeader_strict : s.extractHeader.strict = s.strict := rfl
@[simp] theorem State.extractHeader_err : s.extractHeader.err = s.err := rfl
@[simp] theorem State.extractHeader_verdict : s.extractHeader.verdict = s.verdict := rfl
@[simp] theorem State.extractHeader_tag : s.extractHeader.tag = s.tag := rfl
@[simp] theorem State.extractHeader_hdrv : s.extractHeader.hdrv = true := rfl
@[simp] theorem State.extractHeader_bcnt : s.extractHeader.bcnt = byteCount s.buf := rfl
@[simp] theorem State.extractHeader_explen : s.extractHeader.explen = expectedLen (byteCount s.buf) := rfl
@[simp] theorem State.extractHeader_calcCrc : s.extractHeader.calcCrc = s.calcCrc := rfl
@[simp] theorem State.extractHeader_rxCrc : s.extractHeader.rxCrc = s.rxCrc := rfl
@[simp] theorem State.extractHeader_value : s.extractHeader.value = s.value := rfl
@[simp] theorem State.extractHeader_strlen : s.extractHeader.strlen = s.strlen := rfl
@[simp] theorem State.extractHeader_str : s.extractHeader.str = s.str := rfl
@[simp] theorem State.extractHeader_pending : s.extractHeader.pending = s.pending := rfl
@[simp] theorem State.extractHeader_returned : s.extractHeader.returned = s.returned := rfl

@[simp] theorem State.compareChecksum_params : s.compareChecksum.params = s.params := rfl
@[simp] theorem State.compareChecksum_buf : s.compareChecksum.buf = s.buf := rfl
@[simp] theorem State.compareChecksum_crc : s.compareChecksum.crc = s.crc := rfl
@[simp] theorem State.compareChecksum_strict : s.compareChecksum.strict = s.strict := rfl
@[simp] theorem State.compareChecksum_err : s.compareChecksum.err = s.err := rfl
@[simp] theorem State.compareChecksum_verdict : s.compareChecksum.verdict = verdictOf s.buf (checksum (slice s.buf 0 (s.len - 2))) := rfl
@[simp] theorem State.compareChecksum_tag : s.compareChecksum.tag = s.tag := rfl
@[simp] theorem State.compareChecksum_hdrv : s.compareChecksum.hdrv = s.hdrv := rfl
@[simp] theorem State.compareChecksum_bcnt : s.compareChecksum.bcnt = s.bcnt := rfl
@[simp] theorem State.compareChecksum_explen : s.compareChecksum.explen = s.explen := rfl
@[simp] theorem State.compareChecksum_calcCrc : s.compareChecksum.calcCrc = checksum (slice s.buf 0 (s.len - 2)) := rfl
@[simp] theorem State.compareChecksum_rxCrc : s.compareChecksum.rxCrc = receivedCrc s.buf := rfl
@[simp] theorem State.compareChecksum_value : s.compareChecksum.value = s.value := rfl
@[simp] theorem State.compareChecksum_strlen : s.compareChecksum.strlen = s.strlen := rfl
@[simp] theorem State.compareChecksum_str : s.compareChecksum.str = s.str := rfl
@[simp] theorem State.compareChecksum_pending : s.compareChecksum.pending = s.pending := rfl
@[simp] theorem State.compareChecksum_returned : s.compareChecksum.returned = s.returned := rfl

end

theorem verdictOf_ne_notChecked (m : Memory) (c : Half) : verdictOf m c ≠ .notChecked := by
  unfold verdictOf; split <;> decide

theorem verdictOf_eq_matched_iff (m : Memory) (c : Half) :
    verdictOf m c = .matched ↔ byteAt m (m.length - 2) = lo c ∧ byteAt m (m.length - 1) = hi c := by
  unfold verdictOf; split <;> simp_all

/-- A match is an equality of the two checksums. -/
theorem verdictOf_eq_matched_iff_received (m : Memory) (c : Half) :
    verdictOf m c = .matched ↔ c = receivedCrc m := by
  rw [verdictOf_eq_matched_iff]
  constructor
  · rintro ⟨h1, h2⟩; rw [receivedCrc, h1, h2, halfOf_lo_hi]
  · rintro rfl; simp [receivedCrc]

/-- Everything `check_frame()` can do: the two short cases, and the comparison. -/
theorem checkFrame_cases (s : State) :
    (s.len < 5 ∧ checkFrame s = (.short, s.clearResults)) ∨
      (5 ≤ s.len ∧ s.len < (byteCount s.buf).toNat + 5 ∧ checkFrame s = (.short, s.clearResults.extractHeader)) ∨
      (5 ≤ s.len ∧ (byteCount s.buf).toNat + 5 ≤ s.len ∧
        verdictOf s.buf (checksum (slice s.buf 0 (s.len - 2))) = .matched ∧
        checkFrame s = (.agrees, s.clearResults.extractHeader.compareChecksum)) ∨
      (5 ≤ s.len ∧ (byteCount s.buf).toNat + 5 ≤ s.len ∧
        verdictOf s.buf (checksum (slice s.buf 0 (s.len - 2))) = .mismatched ∧
        checkFrame s = (.differs, s.clearResults.extractHeader.compareChecksum)) := by
  unfold checkFrame
  rw [expectedLen_toNat]
  by_cases h1 : s.len < 5
  · exact .inl ⟨h1, by rw [if_pos h1]⟩
  · rw [if_neg h1]
    by_cases h2 : s.len < (byteCount s.buf).toNat + 5
    · exact .inr (.inl ⟨by omega, h2, by rw [if_pos h2]⟩)
    · rw [if_neg h2]
      have hv : s.clearResults.extractHeader.compareChecksum.verdict =
          verdictOf s.buf (checksum (slice s.buf 0 (s.len - 2))) := rfl
      cases hc : verdictOf s.buf (checksum (slice s.buf 0 (s.len - 2))) with
      | notChecked => exact absurd hc (verdictOf_ne_notChecked _ _)
      | matched => exact .inr (.inr (.inl ⟨by omega, by omega, rfl, by rw [hv, hc]; rfl⟩))
      | mismatched => exact .inr (.inr (.inr ⟨by omega, by omega, rfl, by rw [hv, hc]; rfl⟩))

/-- Every read of the frame check and of the decoder is inside the buffer (20_memory.md R54, log 9). -/
theorem payload_in_range (s : State) (h : (byteCount s.buf).toNat + 5 ≤ s.len) :
    s.extractHeader.payload.length = (byteCount s.buf).toNat := by
  rw [State.payload, slice_length]
  · simp
  · simp only [State.extractHeader_bcnt, State.extractHeader_buf, State.len] at *; omega

/-! ## The decoder (43_decoder.md R155) -/

theorem tagOf_ne_absent (b : Byte) : tagOf b ≠ .absent := by
  unfold tagOf; split <;> [decide; split] <;> [decide; split] <;> decide

section
variable (s : State)

@[simp] theorem State.decodePayload_params : s.decodePayload.params = s.params := by
  unfold State.decodePayload; split <;> rfl
@[simp] theorem State.decodePayload_buf : s.decodePayload.buf = s.buf := by
  unfold State.decodePayload; split <;> rfl
@[simp] theorem State.decodePayload_crc : s.decodePayload.crc = s.crc := by
  unfold State.decodePayload; split <;> rfl
@[simp] theorem State.decodePayload_strict : s.decodePayload.strict = s.strict := by
  unfold State.decodePayload; split <;> rfl
@[simp] theorem State.decodePayload_err : s.decodePayload.err = s.err := by
  unfold State.decodePayload; split <;> rfl
@[simp] theorem State.decodePayload_verdict : s.decodePayload.verdict = s.verdict := by
  unfold State.decodePayload; split <;> rfl
@[simp] theorem State.decodePayload_hdrv : s.decodePayload.hdrv = s.hdrv := by
  unfold State.decodePayload; split <;> rfl
@[simp] theorem State.decodePayload_bcnt : s.decodePayload.bcnt = s.bcnt := by
  unfold State.decodePayload; split <;> rfl
@[simp] theorem State.decodePayload_explen : s.decodePayload.explen = s.explen := by
  unfold State.decodePayload; split <;> rfl
@[simp] theorem State.decodePayload_calcCrc : s.decodePayload.calcCrc = s.calcCrc := by
  unfold State.decodePayload; split <;> rfl
@[simp] theorem State.decodePayload_rxCrc : s.decodePayload.rxCrc = s.rxCrc := by
  unfold State.decodePayload; split <;> rfl
@[simp] theorem State.decodePayload_pending : s.decodePayload.pending = s.pending := by
  unfold State.decodePayload; split <;> rfl
@[simp] theorem State.decodePayload_returned : s.decodePayload.returned = s.returned := by
  unfold State.decodePayload; split <;> rfl

@[simp] theorem State.decodePayload_tag : s.decodePayload.tag = tagOf s.bcnt := by
  unfold State.decodePayload
  split <;> rename_i h <;> first | exact h.symm | exact absurd h (tagOf_ne_absent _)

end

/-! ## The host's side -/

/-- Everything `admitted` can do (20_memory.md R52, R58). -/
theorem admitted_cases (p : Params) (addr bytes : Nat) (k : Nat → Host.Outcome State Fault Refusal) :
    ((addr < p.base ∨ p.base + p.decodeRange ≤ addr) ∧ admitted p addr bytes k = .refused .outsideBlock) ∨
      (p.base ≤ addr ∧ addr < p.base + p.decodeRange ∧ (bytes ≠ 4 ∨ (addr - p.base) % 4 ≠ 0) ∧
        admitted p addr bytes k = .fault .accessNotAdmitted) ∨
      (p.base ≤ addr ∧ addr < p.base + p.decodeRange ∧ bytes = 4 ∧ (addr - p.base) % 4 = 0 ∧
        admitted p addr bytes k = k (addr - p.base)) := by
  unfold admitted
  split
  · exact .inl ⟨by assumption, rfl⟩
  · split
    · exact .inr (.inl ⟨by omega, by omega, by assumption, rfl⟩)
    · exact .inr (.inr ⟨by omega, by omega, by omega, by omega, rfl⟩)

/-- An access at an admitted offset from `BASE` reaches the block at that offset. -/
theorem admitted_offset (p : Params) (off : Nat) (k : Nat → Host.Outcome State Fault Refusal)
    (hr : off < p.decodeRange) (ha : off % 4 = 0) : admitted p (p.base + off) 4 k = k off := by
  have h : p.base + off - p.base = off := by omega
  unfold admitted
  rw [h, if_neg (by omega), if_neg (by omega)]

/-- The register at an offset has that offset (10_state.md R36). -/
theorem offsetOf_registerAt (cap off : Nat) (r : RegName) (h : registerAt cap off = some r) : offsetOf r = off := by
  unfold registerAt at h
  split at h
  · split at h
    · cases h
      simp only [offsetOf]
      omega
    · cases h
  · simpa using List.find?_some h

/-- `CMD` is the register at offset 0, and at no other (10_state.md R36). -/
theorem registerAt_eq_cmd_iff (cap off : Nat) : registerAt cap off = some .cmd ↔ off = 0 :=
  ⟨fun h => (offsetOf_registerAt cap off _ h).symm, by rintro rfl; rfl⟩

/-- `CTRL` is the register at offset 4, and at no other (10_state.md R36). -/
theorem registerAt_eq_ctrl_iff (cap off : Nat) : registerAt cap off = some .ctrl ↔ off = 4 :=
  ⟨fun h => (offsetOf_registerAt cap off _ h).symm, by rintro rfl; rfl⟩

/-- Everything a host write can do (10_state.md R36, 20_memory.md R56). -/
theorem hostWrite_cases (off : Nat) (v : Word) (s : State) :
    (off = 0 ∧ hostWrite off v s = issueCommand v s) ∨ (off = 4 ∧ hostWrite off v s = .next (s.writeCtrl v)) ∨
      (off ≠ 0 ∧ off ≠ 4 ∧ hostWrite off v s = .next s) := by
  unfold hostWrite
  split
  · exact .inl ⟨(registerAt_eq_cmd_iff _ _).mp (by assumption), rfl⟩
  · exact .inr (.inl ⟨(registerAt_eq_ctrl_iff _ _).mp (by assumption), rfl⟩)
  · rename_i h1 h2
    exact .inr (.inr ⟨fun h => h1 ((registerAt_eq_cmd_iff _ _).mpr h),
      fun h => h2 ((registerAt_eq_ctrl_iff _ _).mpr h), rfl⟩)

/-- Everything a write to `CMD` can do (30_encoding.md R70). -/
theorem issueCommand_cases (w : Word) (s : State) :
    (∃ i, decode w = .ok i ∧ issueCommand w s = exec i s) ∨
      (∃ r, decode w = .error r ∧ issueCommand w s = .next (s.fail .illegalCommand)) := by
  unfold issueCommand
  split
  · exact .inl ⟨_, by assumption, rfl⟩
  · exact .inr ⟨_, by assumption, rfl⟩

/-- Everything a step can do. -/
theorem step_cases (s : State) :
    (s.pending = [] ∧ step s = .next s) ∨
      (∃ e rest, s.pending = e :: rest ∧ step s = perform e (s.takeEvent rest)) := by
  unfold step
  split
  · exact .inl ⟨by assumption, rfl⟩
  · exact .inr ⟨_, _, by assumption, rfl⟩

end Sys2Proof.Machine
end

