-- ==== Sys2Proof/Laws/PerInstr.lean ====
section
/-! SUPPORT. Facts about every command as syntax, one lemma per constructor of `Instr`. -/

namespace Sys2Proof.Laws.EncodedLegal

/-- The word of a well-formed command passes R75's predicate: `RSV` is 0, `OPC` is assigned, and `IMM8` is 0 unless
`OPC` is of class B. -/
def Statement (i : Instr) : Prop :=
  i.wellFormed = true →
    rsvField (encode i) = 0 ∧ 1 ≤ (opcField (encode i)).toNat ∧ (opcField (encode i)).toNat ≤ 9 ∧
      (opcField (encode i) = 2 ∨ opcField (encode i) = 4 ∨ immField (encode i) = 0)

theorem clear : Statement .clear := fun _ => by decide
theorem push (b : Byte) : Statement (.push b) := fun _ => by revert b; decide
theorem crcInit : Statement .crcInit := fun _ => by decide
theorem crcByte (b : Byte) : Statement (.crcByte b) := fun _ => by revert b; decide
theorem crcBuf : Statement .crcBuf := fun _ => by decide
theorem append : Statement .append := fun _ => by decide
theorem hdrlen : Statement .hdrlen := fun _ => by decide
theorem validate : Statement .validate := fun _ => by decide
theorem decode : Statement .decode := fun _ => by decide

end Sys2Proof.Laws.EncodedLegal
end

