-- ==== Sys2Proof/Tests/Slice0.lean ====
section
/-! SUPPORT. Tests of this model. Expected values come from spec/95_test_vectors.md and the rules' own examples (named
in the comments), never from the model. Then, for every statement that has hypotheses, a state and operands that meet
them, at a boundary of each clause. -/

open Sys2Proof Sys2Proof.Machine

namespace Sys2Proof.Tests

set_option Elab.async false

/-- The reset state with these bytes in the buffer. -/
def load (bs : List Byte) : State := { State.reset with buf := bs }

/-- The reset state of a block of capacity `cap` at address `base`, with these bytes in the buffer. -/
def loadSmall (cap base : Nat) (bs : List Byte) : State :=
  { State.resetWith { bufCap := cap, base := base, decodeRange := 0x800 } with buf := bs }

/-- The outcome is a next state of which `f` holds. -/
def after (o : Host.Outcome State Fault Refusal) (f : State → Bool) : Bool :=
  match o with
  | .next t => f t
  | .fault _ => false
  | .refused _ => false

/-- The frames of 95_test_vectors.md W3, W5 and W6, and W8's corrupted reply. -/
def w3 : List Byte := [0x01, 0x03, 0x02, 0x00, 0x7B, 0xF8, 0x67]
def w5 : List Byte := [0x01, 0x03, 0x08, 0x41, 0x51, 0x54, 0x31, 0x32, 0x33, 0x34, 0x00, 0x88, 0x89]
def w6 : List Byte := [0x01, 0x03, 0x04, 0x00, 0x00, 0x01, 0x2C, 0xFA, 0x7E]
def w8 : List Byte := [0x01, 0x03, 0x04, 0x00, 0x00, 0x01, 0x2C, 0x00, 0x00]

/-! ## Well-formedness: each check refuses an ill-formed term -/

theorem test_push_operand_too_large : (Line.push 256).wellFormed 260 = false := by decide
theorem test_crc_byte_operand_too_large : (Line.crcByte 256).wellFormed 260 = false := by decide
theorem test_word_too_large : (Line.word (2 ^ 32)).wellFormed 260 = false := by decide
theorem test_ctrl_value_too_large : (Line.wrCtrl (2 ^ 32)).wellFormed 260 = false := by decide
theorem test_push_bytes_operand_too_large : (Line.pushB [0, 255, 256]).wellFormed 260 = false := by decide
theorem test_rx_frame_operand_too_large : (Line.rxFrame [256]).wellFormed 260 = false := by decide
theorem test_hex_odd : (Line.loadHex ['0', '1', '0']).wellFormed 260 = false := by decide
theorem test_hex_bad_character : (Line.build ['0', 'G']).wellFormed 260 = false := by decide
theorem test_window_index_too_large : (Line.rd (.bufw 260)).wellFormed 260 = false := by decide
theorem test_capacity_too_small : ¬ Params.Ok { bufCap := 7, base := 0, decodeRange := 0x1000 } := by decide
theorem test_capacity_too_large : ¬ Params.Ok { bufCap := 65536, base := 0, decodeRange := 0x100000 } := by decide
theorem test_decode_range_too_small : ¬ Params.Ok { bufCap := 8, base := 0, decodeRange := 0x41F } := by decide

/-! ## Decoding: each command's word, written as `RSV`, `IMM8`, `OPC` from R71 and R74 -/

theorem test_word_clear : decode (0x0000#16 ++ 0x00#8 ++ 0x01#8) = .ok .clear := by decide
theorem test_word_push : decode (0x0000#16 ++ 0xA5#8 ++ 0x02#8) = .ok (.push 0xA5) := by decide
theorem test_word_crc_init : decode (0x0000#16 ++ 0x00#8 ++ 0x03#8) = .ok .crcInit := by decide
theorem test_word_crc_byte : decode (0x0000#16 ++ 0x98#8 ++ 0x04#8) = .ok (.crcByte 0x98) := by decide
theorem test_word_crc_buf : decode (0x0000#16 ++ 0x00#8 ++ 0x05#8) = .ok .crcBuf := by decide
theorem test_word_append : decode (0x0000#16 ++ 0x00#8 ++ 0x06#8) = .ok .append := by decide
theorem test_word_hdrlen : decode (0x0000#16 ++ 0x00#8 ++ 0x07#8) = .ok .hdrlen := by decide
theorem test_word_validate : decode (0x0000#16 ++ 0x00#8 ++ 0x08#8) = .ok .validate := by decide
theorem test_word_decode : decode (0x0000#16 ++ 0x00#8 ++ 0x09#8) = .ok .decode := by decide

/-- Vectors E-1 to E-7: illegal words. -/
theorem test_illegal_words :
    [0x00000000#32, 0x0000000A#32, 0x000000FF#32, 0x00000109#32, 0x00000100#32, 0x00010002#32, 0xFFFFFFFF#32].map
      (fun w => (decode w).toOption) = [none, none, none, none, none, none, none] := by decide

/-- R74's rows do not overlap: a word fits at most one. -/
theorem test_rows_do_not_overlap :
    opcodeTable.Pairwise fun r q => r.pattern &&& (r.mask &&& q.mask) ≠ q.pattern &&& (r.mask &&& q.mask) := by decide

theorem test_table_word_push : decodeTableWord 32 0x102 = some (.push 1) := by decide
theorem test_table_word_is_cut : decodeTableWord 8 0x106 = some .append := by decide

/-! ## The commands, on the vectors of 95_test_vectors.md -/

/-- B-2: CLEAR keeps `STRICT` and clears a decoded state. -/
theorem test_clear_keeps_strict :
    after (exec .clear { load w6 with strict := true, tag := .uint32, value := 300, crc := 0x1234 })
      (fun t => t.len = 0 ∧ t.statusWord = 0 ∧ t.value = 0 ∧ t.crc = 0xFFFF#16 ∧ t.readOffset 4 = 1) = true := by decide +kernel

/-- B-3. -/
theorem test_push_appends :
    after (exec (.push 0x04) (load [0x01, 0x03])) (fun t => t.buf = [0x01, 0x03, 0x04] ∧ t.statusWord = 0) = true := by
  decide +kernel

/-- B-5, at `BUF_CAP` = 8. -/
theorem test_push_overflows :
    after (exec (.push 0x00) (loadSmall 8 0 [1, 2, 3, 4, 5, 6, 7, 8])) (fun t => t.len = 8 ∧ t.statusWord = 4) = true := by
  decide +kernel

/-- K-19. -/
theorem test_crc_init : after (exec .crcInit { load [0x41] with crc := 0x0A84, err := .illegalCommand })
    (fun t => t.crc = 0xFFFF#16 ∧ t.buf = [0x41] ∧ t.statusWord = 0) = true := by decide +kernel

/-- E-11. -/
theorem test_crc_byte_ff :
    after (exec (.crcByte 0xFF) (load [0x41])) (fun t => t.crc = 0x00FF#16 ∧ t.buf = [0x41]) = true := by decide +kernel

/-- K-16, second value. -/
theorem test_crc_byte_runs_on :
    after (exec (.crcByte 0x03) { load [] with crc := 0x807E }) (fun t => t.crc = 0x2140#16) = true := by decide +kernel

/-- K-6, the published check value. -/
theorem test_crc_buf_check_value :
    after (exec .crcBuf (load [0x31, 0x32, 0x33, 0x34, 0x35, 0x36, 0x37, 0x38, 0x39])) (fun t => t.crc = 0x4B37#16) = true := by
  decide +kernel

/-- K-21, the residue. -/
theorem test_crc_buf_residue :
    after (exec .crcBuf (load [0x01, 0x03, 0x00, 0x00, 0x00, 0x01, 0x84, 0x0A])) (fun t => t.crc = 0) = true := by
  decide +kernel

/-- K-23. -/
theorem test_append : after (exec .append (load [0x01, 0x03, 0x00, 0x00, 0x00, 0x01]))
    (fun t => t.buf = [0x01, 0x03, 0x00, 0x00, 0x00, 0x01, 0x84, 0x0A] ∧ t.crc = 0x0A84#16) = true := by decide +kernel

/-- K-28 and P6: all or nothing. -/
theorem test_append_overflows :
    after (exec .append (loadSmall 8 0 [0x01, 0x03, 0x00, 0x00, 0x00, 0x01, 0x07]))
      (fun t => t.statusWord = 4 ∧ t.len = 7 ∧ t.crc = 0xFFFF#16) = true := by decide +kernel

/-- V-4. -/
theorem test_hdrlen_largest :
    after (exec .hdrlen (load [0x01, 0x03, 0xFF])) (fun t => t.statusWord = 0x1000 ∧ t.readOffset 0x18 = 0x010400FF) = true := by
  decide +kernel

/-- V-1. -/
theorem test_hdrlen_short :
    after (exec .hdrlen (load [0x01, 0x03])) (fun t => t.statusWord = 0x0001 ∧ t.readOffset 0x18 = 0) = true := by
  decide +kernel

/-- V-9: a checksum with its bytes swapped. -/
theorem test_validate_swapped :
    after (exec .validate (load [0x01, 0x03, 0x00, 0x00, 0x00, 0x01, 0x0A, 0x84]))
      (fun t => t.statusWord = 0x1022 ∧ t.readOffset 0x14 = 0x840A0A84 ∧ t.readOffset 0x18 = 0x00050000) = true := by
  decide +kernel

/-- V-10: one extra 0x00 after a matching frame. -/
theorem test_validate_extra_zero :
    after (exec .validate (load (w3 ++ [0x00])))
      (fun t => t.statusWord = 0x1010 ∧ t.readOffset 0x14 = 0x00670067 ∧ t.readOffset 0x18 = 0x00070002) = true := by
  decide +kernel

/-- D-A5: bytes at or above 0x80 are dropped, then the ends are trimmed; the inner NUL stays. -/
theorem test_decode_text :
    after (exec .decode (load [0x01, 0x03, 0x08, 0x20, 0x80, 0x41, 0x00, 0x42, 0xFF, 0x0D, 0x0A, 0xB9, 0xC9]))
      (fun t => t.statusWord = 0x1310 ∧ t.readOffset 0x20 = 3 ∧ t.readOffset 0x24 = 0x00420041 ∧ t.readOffset 0x28 = 0) = true := by
  decide +kernel

/-- W8 under the advisory policy (P4, lines 8 to 10). -/
theorem test_decode_advisory_mismatch :
    after (exec .decode (load w8)) (fun t => t.statusWord = 0x1222 ∧ t.value = 300 ∧ t.readOffset 0x14 = 0x00007EFA) = true := by
  decide +kernel

/-! ## The host's accesses, the step and the assembler -/

/-- A-1: bits 31:1 of `CTRL` are ignored. -/
theorem test_ctrl_write : after (perform (.write 0x004 4 0xFFFFFFFF#32) (load [])) (fun t => t.readOffset 4 = 1) = true := by
  decide +kernel

/-- A-5 and A-8: `CAP`, and an unmapped offset. -/
theorem test_cap_and_unmapped :
    (load [0x41]).readOffset 0x2C = 0x104 ∧ (load [0x41]).readOffset (0x400 + 4 * 260) = 0 := by decide +kernel

/-- Z-8, as the first step after reset. -/
theorem test_step_append_after_reset :
    after (step (State.reset.withFetchWord 32 6)) (fun t => t.buf = [0xFF, 0xFF] ∧ t.pending = []) = true := by decide +kernel

/-- E-1, as the first step after reset. -/
theorem test_step_illegal_word : after (step ((load [0x41]).withFetchWord 32 0)) (fun t => t.statusWord = 3 ∧ t.buf = [0x41]) = true := by
  decide +kernel

/-- R190: the reset event keeps the events still to come. -/
theorem test_step_reset :
    after (step { load w3 with strict := true, pending := [.reset, .read 0 4] })
      (fun t => t.strict = false ∧ t.buf = [] ∧ t.pending = [.read 0 4]) = true := by decide +kernel

/-- R79 to R84: the text of a line, with a comment; a byte above 255 and a word of no form are not taken. -/
theorem test_line_push : parseLine "PUSH 0xFA ; low".toList = .ok (some (.push 250)) := by decide +kernel
theorem test_line_window : parseLine "RD BUFW[7]".toList = .ok (some (.rd (.bufw 7))) := by decide +kernel
theorem test_line_hex : parseLine "LOADHEX \"01\"".toList = .ok (some (.loadHex ['0', '1'])) := by decide +kernel
theorem test_line_ctrl : parseLine "WR CTRL, 1".toList = .ok (some (.wrCtrl 1)) := by decide +kernel
theorem test_line_comment : parseLine " ; only".toList = .ok none := by decide +kernel
theorem test_line_unknown : parseLine "POP 1".toList = .error .unknownLine := by decide +kernel
theorem test_line_comment_in_quotes : parseLine "LOADHEX \"01;02\"".toList = .error .unknownLine := by decide +kernel
theorem test_assemble_window_index : assembleLine 8 (.rd (.bufw 8)) = .error .operandRange := by decide
theorem test_assemble_out_of_range : assembleLine 260 (.push 256) = .error .operandRange := by decide

/-! ## The hypotheses of the statements are met -/

theorem witness_DecodeEncodeRoundTrip : (Instr.push 0xFF).wellFormed = true := by decide
theorem witness_DecoderAcceptsExactlyThe519LegalWords :
    LegalWord 0x0000FF02#32 ∧ ¬ LegalWord 0x00000109#32 ∧ decode 0x00000009#32 = .ok .decode := by decide
theorem witness_CommandLinesAssembleToTheirWords : 255 < 256 ∧ 259 < 260 := by decide
theorem witness_WriteToCmdIssuesTheCommand :
    (load [0x41]).params.Ok ∧ encode (.push 0xFF) = 0x0000FF02#32 ∧ LegalWord 0x0000FF02#32 ∧ ¬ LegalWord 0xFFFFFFFF#32 ∧
      (0xFFC ≠ 0 ∧ 0xFFC % 4 = 0 ∧ 0xFFC < (load [0x41]).params.decodeRange) ∧
      (0x004 ≠ 0 ∧ 0x004 % 4 = 0 ∧ 0x004 < (load [0x41]).params.decodeRange) := by decide
theorem witness_IllegalWordOnlyRecordsItself :
    (load []).params.Ok ∧ (0x00000000#32).toNat % 256 = 0x00 ∧ 0x0A ≤ (0x0000000A#32).toNat % 256 ∧
      (0x00010002#32).toNat / 2 ^ 16 ≠ 0 ∧
      ((0x00000109#32).toNat % 256 ≠ 0x02 ∧ (0x00000109#32).toNat % 256 ≠ 0x04 ∧
        (0x00000109#32).toNat / 2 ^ 8 % 2 ^ 8 ≠ 0) := by decide
theorem witness_StatusRegisterPacksItsFields : (load []).params.Ok := by decide
theorem witness_CtrlWritesAndReadsStrict : (load []).params.Ok := by decide
theorem witness_ResultRegistersReadTheirFields :
    (load (List.replicate 260 0x41)).params.Ok ∧
      (load (List.replicate 260 0x41)).len ≤ (load (List.replicate 260 0x41)).params.bufCap := by decide +kernel
theorem witness_BufferWindowAndUnmappedReads :
    (1 < (load [0x41, 0x42]).params.bufCap ∧ (load [0x41, 0x42]).buf[1]? = some 0x42) ∧
      (2 < (load [0x41, 0x42]).params.bufCap ∧ (load [0x41, 0x42]).buf[2]? = none) ∧
      (0x030 % 4 = 0 ∧ 0x3FC % 4 = 0 ∧ 0x3FC < 0x400) ∧
      (0x810 % 4 = 0 ∧ 0x400 + 4 * (load [0x41, 0x42]).params.bufCap ≤ 0x810) ∧
      (load [0x41, 0x42]).params.Ok ∧ 0xFFC % 4 = 0 ∧ 0x030 ≤ 0xFFC ∧ 0xFFC < (load [0x41, 0x42]).params.decodeRange := by
  decide
theorem witness_SideEffectsOfHostAccesses :
    (load []).params.Ok ∧ (0x008 % 4 = 0 ∧ 0x008 < (load []).params.decodeRange ∧ 0x008 ≠ 0 ∧ 0x008 ≠ 4) ∧
      (loadSmall 8 0 [1, 2, 3, 4, 5, 6]).params.Ok ∧
      (loadSmall 8 0 [1, 2, 3, 4, 5, 6]).len + 2 ≤ (loadSmall 8 0 [1, 2, 3, 4, 5, 6]).params.bufCap := by decide
theorem witness_AccessesNotAdmittedStop :
    ((load []).params.base ≤ 0x008 ∧ 0x008 < (load []).params.base + (load []).params.decodeRange ∧ 1 ≠ 4) ∧
      ((load []).params.base ≤ 0x001 ∧ 0x001 < (load []).params.base + (load []).params.decodeRange ∧
        (0x001 - (load []).params.base) % 4 ≠ 0) ∧
      0xFF < (loadSmall 8 0x100 []).params.base ∧
      (loadSmall 8 0x100 []).params.base + (loadSmall 8 0x100 []).params.decodeRange ≤ 0x900 := by decide
theorem witness_AdmittedEventsComplete :
    HostEvent.Admitted (load []).params (.read 0xFFC 4) ∧ HostEvent.Admitted (load []).params (.write 0 4 0) ∧
      HostEvent.Admitted (load []).params .reset := by simp [HostEvent.Admitted, load, State.reset, State.resetWith, Params.standard]
theorem witness_AdmittedEventsComplete_program :
    (loadSmall 8 0x100 []).params.Ok ∧ (programEvents (loadSmall 8 0x100 []).params [.push 255, .rd (.bufw 7)] =
      .ok [.write 0x100 4 0x0000FF02#32, .read 0x51C 4]) := ⟨by decide, rfl⟩
theorem witness_OnlyCtrlWritesAndResetChangeStrict :
    perform (.write 0x004 4 1) (load []) = .next { load [] with strict := true } := rfl
theorem witness_StepRunsTheDecodedCommand :
    ({ load w3 with pending := [memWrite Params.standard 0 0x00000009#32, .reset] } : State).pending =
        memWrite (load w3).params 0x000 0x00000009#32 :: [.reset] ∧
      decode 0x00000009#32 = .ok .decode ∧ Instr.decode.wellFormed = true ∧ (load w3).params.Ok := by decide
theorem witness_SilentHostLeavesTheStateAlone : (load w3).pending = [] := by decide
theorem witness_ResetValues :
    Params.Ok { bufCap := 8, base := 0x4000, decodeRange := 0x420 } ∧
      Params.Ok { bufCap := 65535, base := 0, decodeRange := 0x403FC } := by decide
theorem witness_PushAppendsOneByteOrOverflows :
    (loadSmall 8 0 [1, 2, 3, 4, 5, 6, 7]).len ≠ (loadSmall 8 0 [1, 2, 3, 4, 5, 6, 7]).params.bufCap ∧
      (loadSmall 8 0 [1, 2, 3, 4, 5, 6, 7, 8]).len = (loadSmall 8 0 [1, 2, 3, 4, 5, 6, 7, 8]).params.bufCap := by decide
theorem witness_CrcByteStreamsTheChecksum :
    (loadSmall 8 0 [1, 2, 3, 4, 5, 6]).len + 2 ≤ (loadSmall 8 0 [1, 2, 3, 4, 5, 6]).params.bufCap := by decide
theorem witness_CrcBufChecksumsTheBuffer :
    (load []).buf = [] ∧ (load [0x01, 0x03, 0x00, 0x00, 0x00, 0x01]).buf = [0x01, 0x03, 0x00, 0x00, 0x00, 0x01] ∧
      (load [0xFF, 0xFF]).buf = [] ++ [lo (checksum []), hi (checksum [])] := by decide
theorem witness_AppendAddsTheChecksumLowByteFirst :
    (loadSmall 8 0 [1, 2, 3, 4, 5, 6]).len + 2 ≤ (loadSmall 8 0 [1, 2, 3, 4, 5, 6]).params.bufCap ∧
      (loadSmall 8 0 [1, 2, 3, 4, 5, 6, 7]).params.bufCap < (loadSmall 8 0 [1, 2, 3, 4, 5, 6, 7]).len + 2 ∧
      ((load []).params.Ok ∧ (load []).buf = []) ∧
      (loadSmall 8 0 [1, 2, 3, 4]).len + 4 ≤ (loadSmall 8 0 [1, 2, 3, 4]).params.bufCap ∧
      ((load [0x01, 0x03, 0x00, 0x00, 0x00, 0x01]).params.Ok ∧
        (load [0x01, 0x03, 0x00, 0x00, 0x00, 0x01]).buf = [0x01, 0x03, 0x00, 0x00, 0x00, 0x01]) := by decide
theorem witness_FrameBuilder : ([1, 2, 3, 4, 5, 6] : List Byte).length + 2 ≤ (loadSmall 8 0 w3).params.bufCap := by decide
theorem witness_EveryBitFlipChangesTheChecksum : 5 < ([0x01, 0x03, 0x00, 0x00, 0x00, 0x01] : List Byte).length := by decide
theorem witness_HdrlenExtractsTheHeader :
    (load [0x01, 0x03]).len < 3 ∧ (load [0x01, 0x03, 0xFF]).buf = 0x01 :: 0x03 :: 0xFF :: [] := by decide
theorem witness_ValidateChecksTheFrame_short :
    (load [0x01, 0x03, 0x04, 0x00]).len < 5 ∧
      (5 ≤ (load [0x01, 0x03, 0x01, 0x00, 0x00]).len ∧ (load [0x01, 0x03, 0x01, 0x00, 0x00]).buf[2]? = some 0x01 ∧
        (load [0x01, 0x03, 0x01, 0x00, 0x00]).len < (0x01#8).toNat + 5) := by decide
theorem witness_ValidateChecksTheFrame_checked :
    ((load [0x01, 0x03, 0x00, 0x20, 0xF0]).buf = [0x01, 0x03, 0x00] ++ [0x20, 0xF0] ∧
        ([0x01, 0x03, 0x00] : List Byte)[2]? = some 0x00 ∧
        (0x00#8).toNat + 5 ≤ (load [0x01, 0x03, 0x00, 0x20, 0xF0]).len ∧
        0x20#8 = lo (checksum [0x01, 0x03, 0x00]) ∧ 0xF0#8 = hi (checksum [0x01, 0x03, 0x00])) ∧
      0xF0#8 ≠ lo (checksum [0x01, 0x03, 0x00]) := by decide +kernel
theorem witness_ExceptionResponsesAreShortFrames :
    (load [0x01, 0x83, 0x02, 0xC0, 0xF1]).buf = [0x01, 0x83, 0x02, 0xC0, 0xF1] ∧ 0x02#8 ≠ 0 := by decide
theorem witness_OneExtraByteMatchesOnlyIfZero :
    (load (w3 ++ [0x00])).buf =
        [0x01, 0x03, 0x02, 0x00, 0x7B] ++
          [lo (checksum [0x01, 0x03, 0x02, 0x00, 0x7B]), hi (checksum [0x01, 0x03, 0x02, 0x00, 0x7B]), 0x00] ∧
      ([0x01, 0x03, 0x02, 0x00, 0x7B] : List Byte)[2]? = some 0x02 ∧ (0x02#8).toNat + 5 ≤ 5 + 2 := by decide +kernel
theorem witness_AsciiFilterDropsHighBytes :
    0x7F#8 ∈ asciiFilter [0x7F, 0x80] ∧ (0x7F#8).toNat < 0x80 := by decide
theorem witness_TrimRemovesTheEndsOnly :
    (trim [0x20, 0x41, 0x00, 0x42, 0x0A]).head? = some 0x41 ∧ (trim [0x20, 0x41, 0x00, 0x42, 0x0A]).getLast? = some 0x42 ∧
      ∀ x ∈ ([0x00, 0x20, 0x0D, 0x0A] : List Byte), x ∈ [0x00#8, 0x20#8, 0x0D#8, 0x0A#8] := by simp [trim, isTrimmed]
theorem witness_AsciiTextOfEightBytes :
    ([0x20, 0x80, 0x41, 0x00, 0x42, 0xFF, 0x0D, 0x0A] : List Byte).length = 8 ∧ 0x80 ≤ (0x80#8).toNat ∧
      (ascii8Trim [0x20, 0x80, 0x41, 0x00, 0x42, 0xFF, 0x0D, 0x0A]).head? = some 0x41 ∧
      (ascii8Trim [0x20, 0x80, 0x41, 0x00, 0x42, 0xFF, 0x0D, 0x0A]).getLast? = some 0x42 := by decide
theorem witness_DecodeDecodesTheCheckedFrame_short :
    (load [0x01, 0x03, 0x04, 0x00]).len < 5 ∧
      (5 ≤ (load [0x01, 0x03, 0xFF, 0x00, 0x00]).len ∧ (load [0x01, 0x03, 0xFF, 0x00, 0x00]).buf[2]? = some 0xFF ∧
        (load [0x01, 0x03, 0xFF, 0x00, 0x00]).len < (0xFF#8).toNat + 5) := by decide

/-- A frame that meets the third clause's hypotheses: its body, its last two bytes and its byte count. -/
abbrev Frame (bs m : List Byte) (l h b : Byte) : Prop :=
  (load bs).buf = m ++ [l, h] ∧ m[2]? = some b ∧ b.toNat + 5 ≤ (load bs).len

theorem witness_DecodeDecodesTheCheckedFrame_integers :
    Frame w3 [0x01, 0x03, 0x02, 0x00, 0x7B] 0xF8 0x67 2 ∧
      (0xF8#8 = lo (checksum [0x01, 0x03, 0x02, 0x00, 0x7B]) ∧ 0x67#8 = hi (checksum [0x01, 0x03, 0x02, 0x00, 0x7B])) ∧
      Frame w8 [0x01, 0x03, 0x04, 0x00, 0x00, 0x01, 0x2C] 0x00 0x00 4 ∧
      0x00#8 ≠ lo (checksum [0x01, 0x03, 0x04, 0x00, 0x00, 0x01, 0x2C]) ∧
      (load w8).strict = false ∧ ({ load w8 with strict := true } : State).strict = true := by decide +kernel
theorem witness_DecodeDecodesTheCheckedFrame_text_and_raw :
    Frame w5 [0x01, 0x03, 0x08, 0x41, 0x51, 0x54, 0x31, 0x32, 0x33, 0x34, 0x00] 0x88 0x89 8 ∧
      Frame [0x01, 0x03, 0x00, 0x20, 0xF0] [0x01, 0x03, 0x00] 0x20 0xF0 0 := by decide +kernel

/-- Each verdict occurs, and a value is left: the clauses of R158's statement all have a case. -/
theorem witness_MismatchPolicyOutcomes :
    after (exec .decode (load w3)) (fun t => t.verdict = .matched ∧ t.tag = .uint16) = true ∧
      after (exec .decode (load w8)) (fun t => t.verdict = .mismatched ∧ t.tag ≠ .absent) = true ∧
      after (exec .decode (load [])) (fun t => t.verdict = .notChecked) = true := by decide +kernel
theorem witness_PolicyIsReadByDecodeAlone : (load w8).params.Ok := by decide
theorem witness_ResultsDependOnTheBufferAlone :
    (load w3).buf = ({ load w3 with crc := 5, value := 7, err := .illegalCommand } : State).buf ∧
      (load w3).strict = ({ load w3 with crc := 5, value := 7, err := .illegalCommand } : State).strict := by decide
theorem witness_ReceiveSequenceDecodesAnyWellFormedResponse :
    (List.replicate 255 0x41#8).length ≤ 255 ∧ (List.replicate 255 0x41#8).length + 5 ≤ (load w3).params.bufCap ∧
      ([] : List Byte).length + 5 ≤ (loadSmall 8 0 w3).params.bufCap := by decide +kernel
theorem witness_ErrorCodesAndTheirWriters :
    (∃ t, perform (.read 0x008 4) (load []) = .next t) ∧ 0x004 ≠ (load []).params.base ∧
      perform (.write 0x004 4 0) (load []) = .next (load []) := ⟨⟨_, rfl⟩, by decide, rfl⟩
theorem witness_ErrorCausesByCommand :
    (load [0x01, 0x03]).len < 3 ∧ (load [0x01, 0x03, 0x04, 0x00]).len < 5 ∧
      (5 ≤ (load [0x01, 0x03, 0x01, 0x00, 0x00]).len ∧ (load [0x01, 0x03, 0x01, 0x00, 0x00]).buf[2]? = some 0x01 ∧
        (load [0x01, 0x03, 0x01, 0x00, 0x00]).len < (0x01#8).toNat + 5) ∧
      (5 ≤ (load w3).len ∧ (load w3).buf[2]? = some 0x02 ∧ (0x02#8).toNat + 5 ≤ (load w3).len ∧
        (load w3).buf[(load w3).len - 2]? = some 0xF8 ∧ (load w3).buf[(load w3).len - 1]? = some 0x67) ∧
      (loadSmall 8 0 (w3 ++ [0])).len = (loadSmall 8 0 (w3 ++ [0])).params.bufCap ∧
      (loadSmall 8 0 w3).params.bufCap < (loadSmall 8 0 w3).len + 2 := by decide
theorem witness_ResultsAreSnapshots :
    ¬ LegalWord 0x00000109#32 ∧ (load w3).params.Ok ∧
      3 + ({ load [0x01, 0x03, 0x01, 0xAB] with bcnt := 1, tag := .raw } : State).bcnt.toNat ≤
        ({ load [0x01, 0x03, 0x01, 0xAB] with bcnt := 1, tag := .raw } : State).len := by decide

/-- A state with the invariants and a decoded value, about to take a PUSH. -/
def decoded : State :=
  { load w3 with
    tag := .uint16, value := 123, hdrv := true, bcnt := 2, explen := 7, verdict := .matched, calcCrc := 0x67F8
    rxCrc := 0x67F8, pending := [commandWrite Params.standard (.push 0x00)] }

theorem witness_EveryStepKeepsTheInvariants :
    decoded.Inv ∧ after (step decoded) (fun t => t.buf = w3 ++ [0x00] ∧ t.tag = .uint16) = true := by decide +kernel
theorem witness_ResetHasTheInvariants : Params.Ok { bufCap := 8, base := 0x4000, decodeRange := 0x420 } := by decide
theorem witness_NoCommandChangesAByteInTheBuffer :
    (0 < (load [0x41]).len ∧ (load [0x41]).len ≤ (load [0x41]).params.bufCap) ∧
      after (exec (.push 0x42) (load [0x41])) (fun t => (load [0x41]).len < t.len) = true := by decide +kernel
theorem witness_ReachableStatesHaveTheInvariants :
    Params.Ok Params.standard ∧
      ∃ t, Host.Core.run Sys2Proof.core 1 { State.resetWith Params.standard with pending := [.write 0 4 6#32] } = .next t :=
  ⟨by decide, _, rfl⟩
theorem witness_HostReadsTheFrameBack :
    (loadSmall 8 0 [1, 2, 3, 4, 5, 6, 7, 8]).params.Ok ∧
      (loadSmall 8 0 [1, 2, 3, 4, 5, 6, 7, 8]).len ≤ (loadSmall 8 0 [1, 2, 3, 4, 5, 6, 7, 8]).params.bufCap := by decide
theorem witness_AssemblerTakesExactlyWellFormedLines :
    (256 ≤ 256 ∧ (∃ b ∈ [255, 256], 256 ≤ b) ∧ 2 ^ 32 ≤ 2 ^ 32 ∧ 260 ≤ 260) ∧
      (['0'] : List Char).length % 2 = 1 ∧ ('G' ∈ ['0', 'G'] ∧ 'G' ∉ "0123456789abcdefABCDEF".toList) := by decide
theorem witness_LoadHexReadsTwoDigitsAByte :
    'F' ∈ "0123456789abcdefABCDEF".toList ∧ '0' ∈ "0123456789abcdefABCDEF".toList ∧
      "0123456789abcdef".toList[15]? = some 'F'.toLower ∧ "0123456789abcdef".toList[0]? = some '0'.toLower ∧
      assembleLine 260 (.loadHex []) = .ok [] ∧ (['0'] : List Char).length % 2 = 1 := by decide
theorem witness_PushBytesAndReceiveFrameLines :
    (loadSmall 8 0 [1, 2]).params.Ok ∧
      ([1, 2, 3, 4, 5, 6, 7, 8] : List Byte).length ≤ (loadSmall 8 0 [1, 2]).params.bufCap ∧
      ([1, 2, 3, 4, 5, 6] : List Byte) ≠ [] ∧
      (loadSmall 8 0 [1, 2]).len + ([1, 2, 3, 4, 5, 6] : List Byte).length ≤ (loadSmall 8 0 [1, 2]).params.bufCap := by decide
theorem witness_BuildLineBuildsTheFrame :
    (loadSmall 8 0 []).params.Ok ∧ wellFormedHex ['0', '1', '0', '3', 'a', 'F', '0', '0', '0', '0', '0', '1'] = true ∧
      12 / 2 + 2 ≤ (loadSmall 8 0 []).params.bufCap ∧ wellFormedHex (List.replicate 14 '0') = true ∧
      (loadSmall 8 0 []).params.bufCap < (List.replicate 14 '0').length / 2 + 2 := by decide

end Sys2Proof.Tests
end

section
/-! What a block command can do, said once: `CommandEffect` lists the outcomes of all nine commands as updates of
the state, and `exec_effect` ties the list to `exec`. Every fact about "each command" below is a case split on it. -/

namespace Sys2Proof.Machine

/-- A state after step 3 of `check_frame()` (42_frame_validator.md R132): the result groups cleared, the header
extracted and the checksums compared. -/
def State.checkedFrame (s : State) : State := s.startCommand.clearResults.extractHeader.compareChecksum

section
variable (s : State)

@[simp] theorem State.checkedFrame_params : s.checkedFrame.params = s.params := rfl
@[simp] theorem State.checkedFrame_buf : s.checkedFrame.buf = s.buf := rfl
@[simp] theorem State.checkedFrame_crc : s.checkedFrame.crc = s.crc := rfl
@[simp] theorem State.checkedFrame_strict : s.checkedFrame.strict = s.strict := rfl
@[simp] theorem State.checkedFrame_err : s.checkedFrame.err = .none := rfl
@[simp] theorem State.checkedFrame_verdict :
    s.checkedFrame.verdict = verdictOf s.buf (checksum (slice s.buf 0 (s.len - 2))) := rfl
@[simp] theorem State.checkedFrame_tag : s.checkedFrame.tag = .absent := rfl
@[simp] theorem State.checkedFrame_hdrv : s.checkedFrame.hdrv = true := rfl
@[simp] theorem State.checkedFrame_bcnt : s.checkedFrame.bcnt = byteCount s.buf := rfl
@[simp] theorem State.checkedFrame_value : s.checkedFrame.value = 0 := rfl
@[simp] theorem State.checkedFrame_pending : s.checkedFrame.pending = s.pending := rfl
@[simp] theorem State.checkedFrame_returned : s.checkedFrame.returned = s.returned := rfl

end

/-- The frame of the buffer is shorter than its header says: fewer than `BCNT` + 5 bytes (R132, step 2). -/
abbrev State.FrameIncomplete (s : State) : Prop := 5 ≤ s.len ∧ s.len < (byteCount s.buf).toNat + 5

/-- The frame of the buffer is at least as long as its header says (R132, step 3). -/
abbrev State.FrameComplete (s : State) : Prop := 5 ≤ s.len ∧ (byteCount s.buf).toNat + 5 ≤ s.len

/-- `CommandEffect s i t`: command `i` takes `s` to `t`, one constructor per outcome the command rules give. -/
inductive CommandEffect (s : State) : Instr → State → Prop where
  | clear : CommandEffect s .clear (s.startCommand.emptyBuffer.setCrc crcInitial).clearResults
  | push (b : Byte) (room : s.len ≠ s.params.bufCap) : CommandEffect s (.push b) (s.startCommand.appendBytes [b])
  | pushFull (b : Byte) (full : s.len = s.params.bufCap) :
      CommandEffect s (.push b) (s.startCommand.fail .bufferOverflow)
  | crcInit : CommandEffect s .crcInit (s.startCommand.setCrc crcInitial)
  | crcByte (b : Byte) : CommandEffect s (.crcByte b) (s.startCommand.setCrc (crcStep s.crc b))
  | crcBuf : CommandEffect s .crcBuf (s.startCommand.setCrc (checksum s.buf))
  | append (room : s.len + 2 ≤ s.params.bufCap) :
      CommandEffect s .append
        ((s.startCommand.appendBytes (checksumBytes s.buf)).setCrc (checksum s.buf))
  | appendFull (full : s.params.bufCap < s.len + 2) :
      CommandEffect s .append (s.startCommand.fail .bufferOverflow)
  | hdrlen : CommandEffect s .hdrlen s.startCommand.clearResults.extractHeader
  | hdrlenShort (short : s.len < 3) : CommandEffect s .hdrlen (s.startCommand.clearResults.fail .shortFrame)
  | tooShort (i : Instr) (frame : i = .validate ∨ i = .decode) (short : s.len < 5) :
      CommandEffect s i (s.startCommand.clearResults.fail .shortFrame)
  | incomplete (i : Instr) (frame : i = .validate ∨ i = .decode) (short : s.FrameIncomplete) :
      CommandEffect s i (s.startCommand.clearResults.extractHeader.fail .shortFrame)
  | validateMatch (whole : s.FrameComplete) (verdict : s.checkedFrame.verdict = .matched) :
      CommandEffect s .validate s.checkedFrame
  | validateMismatch (whole : s.FrameComplete) (verdict : s.checkedFrame.verdict = .mismatched) :
      CommandEffect s .validate (s.checkedFrame.warn .checksumMismatch)
  | decodeMatch (whole : s.FrameComplete) (verdict : s.checkedFrame.verdict = .matched) :
      CommandEffect s .decode s.checkedFrame.decodePayload
  | decodeStrict (whole : s.FrameComplete) (verdict : s.checkedFrame.verdict = .mismatched)
      (policy : s.strict = true) : CommandEffect s .decode (s.checkedFrame.fail .checksumMismatch)
  | decodeLenient (whole : s.FrameComplete) (verdict : s.checkedFrame.verdict = .mismatched)
      (policy : s.strict = false) :
      CommandEffect s .decode (s.checkedFrame.warn .checksumMismatch).decodePayload

theorem exec_push_effect (b : Byte) (s : State) :
    ∃ t, exec (.push b) s = .next t ∧ CommandEffect s (.push b) t := by
  simp only [exec, execPush]
  split
  case isTrue full => exact ⟨_, rfl, .pushFull b full⟩
  case isFalse room => exact ⟨_, rfl, .push b room⟩

theorem exec_append_effect (s : State) : ∃ t, exec .append s = .next t ∧ CommandEffect s .append t := by
  simp only [exec, execAppend, State.len_eq, slice_all]
  split
  case isTrue full => exact ⟨_, rfl, .appendFull full⟩
  case isFalse room => exact ⟨_, rfl, .append (Nat.not_lt.1 room)⟩

theorem exec_hdrlen_effect (s : State) : ∃ t, exec .hdrlen s = .next t ∧ CommandEffect s .hdrlen t := by
  simp only [exec, execHdrlen]
  split
  case isTrue short => exact ⟨_, rfl, .hdrlenShort short⟩
  case isFalse => exact ⟨_, rfl, .hdrlen⟩

theorem exec_validate_effect (s : State) : ∃ t, exec .validate s = .next t ∧ CommandEffect s .validate t := by
  simp only [exec, execValidate]
  obtain ⟨short, e⟩ | ⟨h5, short, e⟩ | ⟨h5, whole, v, e⟩ | ⟨h5, whole, v, e⟩ :=
    checkFrame_cases s.startCommand <;> rw [e]
  · exact ⟨_, rfl, .tooShort _ (.inl rfl) short⟩
  · exact ⟨_, rfl, .incomplete _ (.inl rfl) ⟨h5, short⟩⟩
  · exact ⟨_, rfl, .validateMatch ⟨h5, whole⟩ v⟩
  · exact ⟨_, rfl, .validateMismatch ⟨h5, whole⟩ v⟩

theorem exec_decode_effect (s : State) : ∃ t, exec .decode s = .next t ∧ CommandEffect s .decode t := by
  simp only [exec, execDecode]
  obtain ⟨short, e⟩ | ⟨h5, short, e⟩ | ⟨h5, whole, v, e⟩ | ⟨h5, whole, v, e⟩ :=
    checkFrame_cases s.startCommand <;> rw [e]
  · exact ⟨_, rfl, .tooShort _ (.inr rfl) short⟩
  · exact ⟨_, rfl, .incomplete _ (.inr rfl) ⟨h5, short⟩⟩
  · exact ⟨_, rfl, .decodeMatch ⟨h5, whole⟩ v⟩
  · dsimp only
    split
    case isTrue policy => exact ⟨_, rfl, .decodeStrict ⟨h5, whole⟩ v policy⟩
    case isFalse policy => exact ⟨_, rfl, .decodeLenient ⟨h5, whole⟩ v (Bool.eq_false_of_not_eq_true policy)⟩

/-- Every command completes, from every state, in one of the outcomes listed. -/
theorem exec_effect (i : Instr) (s : State) : ∃ t, exec i s = .next t ∧ CommandEffect s i t := by
  cases i with
  | clear => exact ⟨_, rfl, .clear⟩
  | push b => exact exec_push_effect b s
  | crcInit => exact ⟨_, rfl, .crcInit⟩
  | crcByte b => exact ⟨_, rfl, .crcByte b⟩
  | crcBuf => exact ⟨_, by simp only [exec, execCrcBuf, State.len_eq, slice_all], .crcBuf⟩
  | append => exact exec_append_effect s
  | hdrlen => exact exec_hdrlen_effect s
  | validate => exact exec_validate_effect s
  | decode => exact exec_decode_effect s

theorem commandEffect_of_exec {i : Instr} {s t : State} (h : exec i s = .next t) : CommandEffect s i t := by
  obtain ⟨u, hu, effect⟩ := exec_effect i s
  cases hu.symm.trans h
  exact effect

/-- To show that a command completes in `P`, show `P` of each of its outcomes. -/
theorem completes_of_effect {i : Instr} {s : State} {P : State → Prop} (h : ∀ t, CommandEffect s i t → P t) :
    Completes (exec i s) P := by
  obtain ⟨t, ht, effect⟩ := exec_effect i s
  exact ⟨t, ht, h t effect⟩

/-- No command touches the parameters, the policy, or the host's side of the interface. -/
theorem CommandEffect.frame {i : Instr} {s t : State} (h : CommandEffect s i t) :
    t.params = s.params ∧ t.strict = s.strict ∧ t.pending = s.pending ∧ t.returned = s.returned := by
  cases h <;> simp

end Sys2Proof.Machine
end

section
/-! What a host event can do, said once: `EventEffect` lists the outcomes of an access that is performed and of reset
(20_memory.md R52 to R56, 70_reset_and_hazards.md R190), and `perform_effect` ties the list to `perform`. -/

namespace Sys2Proof.Machine

/-- `EventEffect s e t`: the event `e` takes `s` to `t`. -/
inductive EventEffect (s : State) : HostEvent → State → Prop where
  | read (addr : Nat) : EventEffect s (.read addr 4) (s.returnWord (s.readOffset (addr - s.params.base)))
  | command (w : Word) (i : Instr) (t : State) (decoded : decode w = .ok i) (performed : exec i s = .next t) :
      EventEffect s (.write s.params.base 4 w) t
  | illegal (w : Word) : EventEffect s (.write s.params.base 4 w) (s.fail .illegalCommand)
  | ctrl (v : Word) : EventEffect s (.write (s.params.base + 4) 4 v) (s.writeCtrl v)
  | ignored (addr : Nat) (v : Word) (notCmd : addr ≠ s.params.base) (notCtrl : addr ≠ s.params.base + 4) :
      EventEffect s (.write addr 4 v) s
  | reset : EventEffect s .reset s.resetBlock

/-- A write that reaches the block completes, whatever the word, in one of the outcomes of a write. -/
theorem hostWrite_effect (s : State) (addr : Nat) (v : Word) (reach : s.params.base ≤ addr) :
    ∃ t, hostWrite (addr - s.params.base) v s = .next t ∧ EventEffect s (.write addr 4 v) t := by
  obtain ⟨h0, e⟩ | ⟨h4, e⟩ | ⟨h0, h4, e⟩ := hostWrite_cases (addr - s.params.base) v s <;> rw [e]
  · obtain rfl : addr = s.params.base := by omega
    obtain ⟨i, hd, hx⟩ | ⟨r, -, hx⟩ := issueCommand_cases v s <;> rw [hx]
    · obtain ⟨t, ht, -⟩ := exec_effect i s
      exact ⟨t, ht, .command v i t hd ht⟩
    · exact ⟨_, rfl, .illegal v⟩
  · obtain rfl : addr = s.params.base + 4 := by omega
    exact ⟨_, rfl, .ctrl v⟩
  · exact ⟨s, rfl, .ignored addr v (by omega) (by omega)⟩

/-- Every admitted event is performed, from every state (R52, R178). -/
theorem perform_effect (s : State) (e : HostEvent) (admissible : e.Admitted s.params) :
    ∃ t, perform e s = .next t ∧ EventEffect s e t := by
  cases e with
  | read addr bytes =>
    obtain ⟨low, high, rfl, aligned⟩ := admissible
    have reach := admitted_offset s.params (addr - s.params.base) (fun off => hostRead off s) (by omega) aligned
    rw [Nat.add_sub_cancel' low] at reach
    exact ⟨_, reach, .read addr⟩
  | write addr bytes v =>
    obtain ⟨low, high, rfl, aligned⟩ := admissible
    have reach := admitted_offset s.params (addr - s.params.base) (fun off => hostWrite off v s) (by omega) aligned
    rw [Nat.add_sub_cancel' low] at reach
    obtain ⟨t, ht, effect⟩ := hostWrite_effect s addr v low
    exact ⟨t, reach.trans ht, effect⟩
  | reset => exact ⟨_, rfl, .reset⟩

/-- An event that is performed was an admitted one (R52, R58). -/
theorem admitted_of_perform {s t : State} {e : HostEvent} (h : perform e s = .next t) : e.Admitted s.params := by
  have reach : ∀ (addr bytes : Nat) (k : Nat → Host.Outcome State Fault Refusal),
      admitted s.params addr bytes k = .next t → s.params.base ≤ addr ∧
        addr < s.params.base + s.params.decodeRange ∧ bytes = 4 ∧ (addr - s.params.base) % 4 = 0 := by
    intro addr bytes k hk
    obtain ⟨-, e⟩ | ⟨-, -, -, e⟩ | ⟨low, high, width, aligned, -⟩ := admitted_cases s.params addr bytes k
    · exact absurd (e.symm.trans hk) (by simp)
    · exact absurd (e.symm.trans hk) (by simp)
    · exact ⟨low, high, width, aligned⟩
  cases e with
  | read addr bytes => exact reach addr bytes (fun off => hostRead off s) h
  | write addr bytes v => exact reach addr bytes (fun off => hostWrite off v s) h
  | reset => trivial

theorem eventEffect_of_perform {s t : State} {e : HostEvent} (h : perform e s = .next t) : EventEffect s e t := by
  obtain ⟨u, hu, effect⟩ := perform_effect s e (admitted_of_perform h)
  cases hu.symm.trans h
  exact effect

/-- No event touches the parameters or the events still to come. -/
theorem EventEffect.frame {s t : State} {e : HostEvent} (h : EventEffect s e t) :
    t.params = s.params ∧ t.pending = s.pending := by
  cases h with
  | command w i t _ performed =>
    obtain ⟨params, -, pending, -⟩ := (commandEffect_of_exec performed).frame
    exact ⟨params, pending⟩
  | _ => exact ⟨rfl, rfl⟩

end Sys2Proof.Machine
end

section
/-! The invariants of 10_state.md R35: each named operation keeps them, so each command, each event and each step
does. -/

namespace Sys2Proof.Machine

/-! ## Operations on the block's state -/

theorem ErrCode.code_le_four (e : ErrCode) : e.code.toNat ≤ 4 := by cases e <;> decide
theorem Verdict.code_le_two (v : Verdict) : v.code.toNat ≤ 2 := by cases v <;> decide
theorem Tag.code_le_four (t : Tag) : t.code.toNat ≤ 4 := by cases t <;> decide

section
variable {s : State}

theorem State.Inv.setErr (h : s.Inv) (e : ErrCode) : (s.setErr e).Inv := by
  obtain ⟨params, header, check, value, tag, -, range⟩ := h
  exact ⟨params, header, check, value, tag, e.code_le_four, range⟩

theorem State.Inv.setCrc (h : s.Inv) (c : Half) : (s.setCrc c).Inv := h
theorem State.Inv.setStrict (h : s.Inv) (b : Bool) : (s.setStrict b).Inv := h
theorem State.Inv.returnWord (h : s.Inv) (v : Word) : (s.returnWord v).Inv := h
theorem State.Inv.takeEvent (h : s.Inv) (rest : List HostEvent) : (s.takeEvent rest).Inv := h

/-- R24: the buffer of a state with the invariants is within its capacity. -/
theorem State.Inv.len_le (h : s.Inv) : s.len ≤ s.params.bufCap := by
  obtain ⟨-, -, -, -, -, -, -, -, -, fits⟩ := h
  exact (Memory.wf_iff _ _).1 fits

theorem State.Inv.setBuffer (h : s.Inv) (m : Memory) (fits : m.length ≤ s.params.bufCap) :
    ({ s with buf := m } : State).Inv := by
  obtain ⟨params, header, check, value, tag, err, verdict, tagCode, strlen, -⟩ := h
  exact ⟨params, header, check, value, tag, err, verdict, tagCode, strlen, (Memory.wf_iff _ _).2 fits⟩

theorem State.Inv.emptyBuffer (h : s.Inv) : s.emptyBuffer.Inv := h.setBuffer [] (Nat.zero_le _)

theorem State.Inv.appendBytes (h : s.Inv) (bs : List Byte) (room : s.len + bs.length ≤ s.params.bufCap) :
    (s.appendBytes bs).Inv :=
  h.setBuffer (s.buf ++ bs) (by simpa [State.len_eq] using room)

theorem State.Inv.ofClearedResults (params : s.params.Ok) (fits : s.len ≤ s.params.bufCap)
    (header : s.hdrv = false ∧ s.bcnt = 0 ∧ s.explen = 0)
    (check : s.verdict = .notChecked ∧ s.calcCrc = 0 ∧ s.rxCrc = 0)
    (value : s.tag = .absent ∧ s.value = 0 ∧ s.strlen = 0 ∧ s.str = Vector.replicate 8 0) : s.Inv := by
  obtain ⟨hdrv, bcnt, explen⟩ := header
  obtain ⟨verdict, calcCrc, rxCrc⟩ := check
  obtain ⟨tag, value, strlen, str⟩ := value
  refine ⟨params, ?_, ?_, ?_, ?_, s.err.code_le_four, s.verdict.code_le_two, s.tag.code_le_four, ?_,
    (Memory.wf_iff _ _).2 fits⟩
  · simp [HeaderInv, hdrv, bcnt, explen]
  · simp [CheckInv, verdict, calcCrc, rxCrc]
  · simp [ValueInv, tag, value, strlen, str]
  · simp [TagInv, tag]
  · simp [strlen]

theorem State.Inv.clearResults (h : s.Inv) : s.clearResults.Inv :=
  .ofClearedResults h.1 h.len_le ⟨rfl, rfl, rfl⟩ ⟨rfl, rfl, rfl⟩ ⟨rfl, rfl, rfl, rfl⟩

theorem State.Inv.resetBlock (h : s.Inv) : s.resetBlock.Inv :=
  .ofClearedResults h.1 (Nat.zero_le _) ⟨rfl, rfl, rfl⟩ ⟨rfl, rfl, rfl⟩ ⟨rfl, rfl, rfl, rfl⟩

/-- Where there is no value, the value registers are all 0 (R35.3, R35.4). -/
theorem State.Inv.value_zero_of_absent (h : s.Inv) (absent : s.tag = .absent) :
    s.value = 0 ∧ s.strlen = 0 ∧ ∀ i : Fin 8, s.str[i] = 0 := by
  obtain ⟨-, -, -, ⟨value, -, strlen, str⟩, -⟩ := h
  have len : s.strlen = 0 := strlen (by simp [absent])
  exact ⟨value (.inl absent), len, fun i => str i (by simp [len])⟩

/-- The header may be written while there is no value that depends on it (R35.1, R35.5, R35.6). -/
theorem State.Inv.extractHeader (h : s.Inv) (absent : s.tag = .absent) : s.extractHeader.Inv := by
  obtain ⟨params, -, check, value, -, range⟩ := h
  exact ⟨params, ⟨by simp, by simp⟩, check, value, by simp [TagInv, absent], range⟩

/-- R42: the recorded verdict says whether the two checksums agree. -/
theorem State.compareChecksum_checkInv (s : State) : CheckInv s.compareChecksum := by
  refine ⟨fun v => absurd v (verdictOf_ne_notChecked _ _), fun v => ?_, fun v agree => ?_⟩
  · exact (verdictOf_eq_matched_iff_received _ _).1 v
  · have matched := (verdictOf_eq_matched_iff_received _ _).2 agree
    exact absurd (matched.symm.trans v) (by decide)

theorem State.Inv.compareChecksum (h : s.Inv) (absent : s.tag = .absent) : s.compareChecksum.Inv := by
  obtain ⟨params, header, -, value, -, err, -, range⟩ := h
  exact ⟨params, header, s.compareChecksum_checkInv, value, by simp [TagInv, absent], err,
    Verdict.code_le_two _, range⟩

theorem State.Inv.checkedFrame (h : s.Inv) : s.checkedFrame.Inv :=
  (((h.setErr .none).clearResults).extractHeader rfl).compareChecksum rfl

/-! ## The decoder -/

theorem slice_length_le (m : List Byte) (a b : Nat) : (slice m a b).length ≤ b - a := by
  simp [slice]; omega

theorem trim_length_le (p : List Byte) : (trim p).length ≤ p.length := by
  have front := (List.dropWhile_sublist (p := isTrimmed) (l := p)).length_le
  have back := (List.dropWhile_sublist (p := isTrimmed) (l := (p.dropWhile isTrimmed).reverse)).length_le
  simp only [trim, List.length_reverse] at back ⊢
  omega

theorem ascii8Trim_length_le (p : List Byte) : (ascii8Trim p).length ≤ p.length :=
  (trim_length_le _).trans List.filter_sublist.length_le

/-- The variant goes with the byte count (R35.6). -/
theorem tagOf_cases (b : Byte) :
    (b = 2 ∧ tagOf b = .uint16) ∨ (b = 4 ∧ tagOf b = .uint32) ∨ (b = 8 ∧ tagOf b = .ascii) ∨
      (b ≠ 2 ∧ b ≠ 4 ∧ b ≠ 8 ∧ tagOf b = .raw) := by
  unfold tagOf
  split
  · exact .inl ⟨by assumption, rfl⟩
  · split
    · exact .inr (.inl ⟨by assumption, rfl⟩)
    · split
      · exact .inr (.inr (.inl ⟨by assumption, rfl⟩))
      · exact .inr (.inr (.inr ⟨by assumption, by assumption, by assumption, rfl⟩))

/-- Everything `case BCNT of` can do (43_decoder.md R155), by the byte count. -/
theorem State.decodePayload_cases (s : State) :
    (s.bcnt = 2 ∧ s.decodePayload = (s.setTag .uint16).setValue ((decU16 s.payload).setWidth 32)) ∨
      (s.bcnt = 4 ∧ s.decodePayload = (s.setTag .uint32).setValue (decU32 s.payload)) ∨
      (s.bcnt = 8 ∧ s.decodePayload = (s.setTag .ascii).setString (ascii8Trim s.payload)) ∨
      (s.bcnt ≠ 2 ∧ s.bcnt ≠ 4 ∧ s.bcnt ≠ 8 ∧ s.decodePayload = s.setTag .raw) := by
  unfold State.decodePayload
  obtain ⟨h, e⟩ | ⟨h, e⟩ | ⟨h, e⟩ | ⟨h2, h4, h8, e⟩ := tagOf_cases s.bcnt <;> rw [e]
  · exact .inl ⟨h, rfl⟩
  · exact .inr (.inl ⟨h, rfl⟩)
  · exact .inr (.inr (.inl ⟨h, rfl⟩))
  · exact .inr (.inr (.inr ⟨h2, h4, h8, rfl⟩))

theorem State.strlen_setString (s : State) (t : List Byte) (short : t.length ≤ 8) :
    (s.setString t).strlen.toNat = t.length := by
  simp; omega

/-- The bytes of a decoded text: the text, and 0 after its end where the registers were 0 before. -/
theorem State.str_setString (s : State) (t : List Byte) (zero : ∀ i : Fin 8, s.str[i] = 0) (i : Fin 8) :
    (s.setString t).str[i] = t.getD i 0 := by
  have zero_i : s.str[i.val] = 0 := zero i
  by_cases h : i.val < t.length <;> simp [h, zero_i]

/-- The payload of a frame with byte count 8 has at most 8 bytes, so its text has. -/
theorem State.text_length_le (s : State) (eight : s.bcnt = 8) : (ascii8Trim s.payload).length ≤ 8 := by
  have payload := slice_length_le s.buf 3 (3 + s.bcnt.toNat)
  have count : s.bcnt.toNat = 8 := by rw [eight]; rfl
  calc (ascii8Trim s.payload).length ≤ s.payload.length := ascii8Trim_length_le _
    _ ≤ 3 + s.bcnt.toNat - 3 := payload
    _ = 8 := by omega

/-- R35.5, R35.6: on a checked frame the value's variant is the one its byte count selects. -/
theorem State.decodePayload_tagInv (s : State) (header : s.hdrv = true) (checked : s.verdict ≠ .notChecked) :
    TagInv s.decodePayload := by
  obtain ⟨n, -⟩ | ⟨n, -⟩ | ⟨n, -⟩ | ⟨n2, n4, n8, e⟩ := tagOf_cases s.bcnt
  · simp [TagInv, header, checked, n, tagOf]
  · simp [TagInv, header, checked, n, tagOf]
  · simp [TagInv, header, checked, n, tagOf]
  · simpa [TagInv, header, checked, e] using ⟨n2, n4, n8⟩

/-- R35.3, R35.4 and `STRLEN` ≤ 8: the value registers hold what the variant uses, and 0 else. -/
theorem State.decodePayload_valueInv (s : State) (value : s.value = 0) (strlen : s.strlen = 0)
    (str : ∀ i : Fin 8, s.str[i] = 0) :
    ValueInv s.decodePayload ∧ s.decodePayload.strlen.toNat ≤ 8 := by
  obtain ⟨-, e⟩ | ⟨-, e⟩ | ⟨n, e⟩ | ⟨-, -, -, e⟩ := s.decodePayload_cases <;> rw [e]
  · have fits := (decU16 s.payload).isLt
    exact ⟨⟨by simp, fun _ => by simp; omega, by simp [strlen], fun i _ => str i⟩, by simp [strlen]⟩
  · exact ⟨⟨by simp, by simp, by simp [strlen], fun i _ => str i⟩, by simp [strlen]⟩
  · have short := s.text_length_le n
    have len := (s.setTag .ascii).strlen_setString _ short
    refine ⟨⟨fun _ => value, by simp, by simp, fun i past => ?_⟩, len.le.trans short⟩
    rw [(s.setTag .ascii).str_setString _ str, List.getD_eq_default _ _ (len.symm.le.trans past)]
  · exact ⟨⟨fun _ => value, by simp, fun _ => strlen, fun i _ => str i⟩, by simp [strlen]⟩

/-- A checked frame with no value yet may be given the value its byte count selects. -/
theorem State.Inv.decodePayload (h : s.Inv) (absent : s.tag = .absent) (header : s.hdrv = true)
    (checked : s.verdict ≠ .notChecked) : s.decodePayload.Inv := by
  obtain ⟨value, strlen, str⟩ := h.value_zero_of_absent absent
  obtain ⟨params, headerInv, check, -, -, err, verdict, -, -, fits⟩ := h
  obtain ⟨valueInv, strlen_le⟩ := s.decodePayload_valueInv value strlen str
  exact ⟨by simpa using params, by simpa [HeaderInv] using headerInv, by simpa [CheckInv] using check, valueInv,
    s.decodePayload_tagInv header checked, by simpa using err, by simpa using verdict, Tag.code_le_four _, strlen_le,
    by simpa using fits⟩

end

/-! ## Commands, events and steps -/

theorem CommandEffect.inv {i : Instr} {s t : State} (h : s.Inv) (effect : CommandEffect s i t) : t.Inv := by
  have started : s.startCommand.Inv := h.setErr .none
  have cleared : s.startCommand.clearResults.Inv := started.clearResults
  have headed : s.startCommand.clearResults.extractHeader.Inv := cleared.extractHeader rfl
  have checked : s.checkedFrame.verdict ≠ .notChecked := verdictOf_ne_notChecked _ _
  cases effect with
  | clear => exact (started.emptyBuffer.setCrc crcInitial).clearResults
  | push b room => exact started.appendBytes [b] (Nat.lt_of_le_of_ne h.len_le room)
  | pushFull | appendFull => exact started.setErr .bufferOverflow
  | crcInit | crcByte | crcBuf => exact started.setCrc _
  | append room => exact (started.appendBytes (checksumBytes s.buf) room).setCrc _
  | hdrlen => exact headed
  | hdrlenShort | tooShort => exact cleared.setErr .shortFrame
  | incomplete => exact headed.setErr .shortFrame
  | validateMatch => exact h.checkedFrame
  | validateMismatch | decodeStrict => exact h.checkedFrame.setErr .checksumMismatch
  | decodeMatch => exact h.checkedFrame.decodePayload rfl rfl checked
  | decodeLenient => exact (h.checkedFrame.setErr .checksumMismatch).decodePayload rfl rfl checked

theorem EventEffect.inv {s t : State} {e : HostEvent} (h : s.Inv) (effect : EventEffect s e t) : t.Inv := by
  cases effect with
  | read addr => exact h.returnWord _
  | command w i t _ performed => exact (commandEffect_of_exec performed).inv h
  | illegal w => exact h.setErr .illegalCommand
  | ctrl v => exact h.setStrict _
  | ignored => exact h
  | reset => exact h.resetBlock

theorem step_inv {s t : State} (h : s.Inv) (moved : step s = .next t) : t.Inv := by
  obtain ⟨-, e⟩ | ⟨event, rest, -, e⟩ := step_cases s
  · cases e.symm.trans moved
    exact h
  · exact (eventEffect_of_perform (e.symm.trans moved)).inv (h.takeEvent rest)

/-- What every step keeps, every run keeps. -/
theorem run_inv (k : Nat) {s t : State} (h : s.Inv) (ran : Host.Core.run Sys2Proof.core k s = .next t) : t.Inv := by
  induction k generalizing s with
  | zero =>
    cases ran
    exact h
  | succ k ih =>
    simp only [Host.Core.run] at ran
    split at ran
    case h_1 u moved => exact ih (step_inv h moved) ran
    all_goals cases ran

theorem resetWith_inv (p : Params) (legal : p.Ok) (es : List HostEvent) :
    ({ State.resetWith p with pending := es } : State).Inv :=
  .ofClearedResults legal (Nat.zero_le _) ⟨rfl, rfl, rfl⟩ ⟨rfl, rfl, rfl⟩ ⟨rfl, rfl, rfl, rfl⟩

/-- Settles O53: the step's event keeps the invariants, by the outcomes an event can have. -/
theorem everyStepKeepsTheInvariants : Obligations.EveryStepKeepsTheInvariants :=
  fun _ _ h moved => step_inv h moved

/-- Settles O54. -/
theorem resetHasTheInvariants : Obligations.ResetHasTheInvariants :=
  ⟨resetWith_inv Params.standard (by decide) [], fun p legal => resetWith_inv p legal []⟩

/-- Settles O55, by induction on the number of steps from reset. -/
theorem reachableStatesHaveTheInvariants : Obligations.ReachableStatesHaveTheInvariants :=
  fun p es k _ legal ran => run_inv k (resetWith_inv p legal es) ran

end Sys2Proof.Machine
end

section
/-! What the host's accesses do, by offset: the register map read by number (10_state.md R36 to R47), the frame of a
read and of a write (20_memory.md R55, R56), and sequences of reads. -/

namespace Sys2Proof.Machine

/-! ## Bit fields of a word -/

/-- A field put above the low `k` bits adds `2 ^ k` times its number. -/
theorem toNat_or_shiftLeft (a b : Word) (k : Nat) (low : a.toNat < 2 ^ k) (high : 2 ^ k * b.toNat < 2 ^ 32) :
    (a ||| b <<< k).toNat = a.toNat + 2 ^ k * b.toNat := by
  have shifted : b.toNat <<< k = 2 ^ k * b.toNat := by rw [Nat.shiftLeft_eq, Nat.mul_comm]
  rw [BitVec.toNat_or, BitVec.toNat_shiftLeft, shifted, Nat.mod_eq_of_lt high, Nat.or_comm,
    ← Nat.two_pow_add_eq_or_of_lt low, Nat.add_comm]

theorem flagWord_eq (b : Bool) : flagWord b = if b then 1 else 0 := by cases b <;> rfl

theorem packLanes_toNat (b0 b1 b2 b3 : Byte) :
    (packLanes b0 b1 b2 b3).toNat = b0.toNat + 2 ^ 8 * b1.toNat + 2 ^ 16 * b2.toNat + 2 ^ 24 * b3.toNat := by
  have := b0.isLt; have := b1.isLt; have := b2.isLt; have := b3.isLt
  have lane : ∀ b : Byte, (b.setWidth 32).toNat = b.toNat := fun b => by
    have := b.isLt
    rw [BitVec.toNat_setWidth]; omega
  have low : (b0.setWidth 32 ||| b1.setWidth 32 <<< 8).toNat = b0.toNat + 2 ^ 8 * b1.toNat := by
    rw [toNat_or_shiftLeft _ _ _ (by rw [lane]; omega) (by rw [lane]; omega), lane, lane]
  have mid : (b0.setWidth 32 ||| b1.setWidth 32 <<< 8 ||| b2.setWidth 32 <<< 16).toNat =
      b0.toNat + 2 ^ 8 * b1.toNat + 2 ^ 16 * b2.toNat := by
    rw [toNat_or_shiftLeft _ _ _ (by rw [low]; omega) (by rw [lane]; omega), low, lane]
  rw [packLanes, toNat_or_shiftLeft _ _ _ (by rw [mid]; omega) (by rw [lane]; omega), mid, lane]

theorem halfPair_toNat (a b : Half) :
    (a.setWidth 32 ||| (b.setWidth 32 <<< 16)).toNat = a.toNat + 2 ^ 16 * b.toNat := by
  have := a.isLt; have := b.isLt
  rw [toNat_or_shiftLeft] <;> simp only [BitVec.toNat_setWidth] <;> omega

theorem frameInfo_toNat (b : Byte) (e : BitVec 9) :
    (b.setWidth 32 ||| (e.setWidth 32 <<< 16)).toNat = b.toNat + 2 ^ 16 * e.toNat := by
  have := b.isLt; have := e.isLt
  rw [toNat_or_shiftLeft] <;> simp only [BitVec.toNat_setWidth] <;> omega

theorem halfWord_toNat (n : Nat) (fits : n ≤ 65535) : (halfWord n).toNat = n := by
  simp only [halfWord, BitVec.toNat_setWidth, BitVec.toNat_ofNat]
  omega

/-- `STATUS` packs its fields: each code has finitely many values. -/
theorem State.statusWord_toNat (s : State) : s.statusWord.toNat =
    s.err.code.toNat + 2 ^ 4 * s.verdict.code.toNat + 2 ^ 8 * s.tag.code.toNat + 2 ^ 12 * s.hdrv.toNat := by
  simp only [State.statusWord]
  cases s.err <;> cases s.verdict <;> cases s.tag <;> cases s.hdrv <;> rfl

/-! ## The register map -/

/-- The registers below the buffer window stand at their offsets, whatever the capacity (R36). -/
theorem State.readOffset_named (s : State) (r : RegName) (named : r ∈ namedRegisters) :
    s.readOffset (offsetOf r) = s.readRegister r := by
  have at_r : registerAt s.params.bufCap (offsetOf r) = some r := by
    cases r with
    | bufw i => simp [namedRegisters] at named
    | _ => rfl
  rw [State.readOffset, at_r]

/-- `BUFW[i]` stands at 0x400 + 4·`i` (R47). -/
theorem State.readOffset_window (s : State) (i : Nat) (below : i < s.params.bufCap) :
    s.readOffset (0x400 + 4 * i) = bufferWord s.buf i := by
  have at_i : registerAt s.params.bufCap (0x400 + 4 * i) = some (.bufw i) := by
    rw [registerAt, if_pos (by omega), if_pos ⟨by omega, by omega⟩]
    congr 2
    omega
  rw [State.readOffset, at_i]
  rfl

theorem State.readOffset_of_unmapped (s : State) (off : Nat) (unmapped : registerAt s.params.bufCap off = none) :
    s.readOffset off = 0 := by
  rw [State.readOffset, unmapped]

/-- The named registers stand below 0x030 (R36). -/
theorem registerAt_gap (cap off : Nat) (low : 0x030 ≤ off) (high : off < 0x400) : registerAt cap off = none := by
  rw [registerAt, if_neg (by omega), List.find?_eq_none]
  intro r named
  have below : offsetOf r < 0x030 := by
    revert r
    decide
  simp only [beq_iff_eq]
  omega

theorem registerAt_past_window (cap off : Nat) (past : 0x400 + 4 * cap ≤ off) : registerAt cap off = none := by
  rw [registerAt, if_pos (by omega), if_neg (by omega)]

/-! ## Reads and writes at an admitted offset -/

theorem perform_memRead (s : State) (off : Nat) (aligned : off % 4 = 0) (inRange : off < s.params.decodeRange) :
    perform (memRead s.params off) s = .next (s.returnWord (s.readOffset off)) :=
  admitted_offset s.params off (fun off => hostRead off s) inRange aligned

theorem perform_memWrite (s : State) (off : Nat) (v : Word) (aligned : off % 4 = 0)
    (inRange : off < s.params.decodeRange) : perform (memWrite s.params off v) s = hostWrite off v s :=
  admitted_offset s.params off (fun off => hostWrite off v s) inRange aligned

/-- The registers below the buffer window are inside every decode range that R58 allows. -/
theorem lt_decodeRange_of_named {p : Params} (legal : p.Ok) {off : Nat} (low : off < 0x400) :
    off < p.decodeRange := by
  obtain ⟨-, -, range⟩ := legal
  omega

theorem perform_ctrlWrite (s : State) (v : Word) (legal : s.params.Ok) :
    perform (memWrite s.params 0x004 v) s = .next (s.writeCtrl v) :=
  perform_memWrite s 0x004 v rfl (lt_decodeRange_of_named legal (by omega))

/-- A write to `CMD` issues the word (30_encoding.md R70). -/
theorem perform_cmdWrite (s : State) (w : Word) (legal : s.params.Ok) :
    perform (memWrite s.params 0x000 w) s = issueCommand w s :=
  perform_memWrite s 0x000 w rfl (lt_decodeRange_of_named legal (by omega))

/-- A write to an offset of neither `CMD` nor `CTRL` is ignored (20_memory.md R55, R56). -/
theorem perform_ignoredWrite (s : State) (off : Nat) (v : Word) (aligned : off % 4 = 0)
    (inRange : off < s.params.decodeRange) (notCmd : off ≠ 0x000) (notCtrl : off ≠ 0x004) :
    perform (memWrite s.params off v) s = .next s := by
  rw [perform_memWrite s off v aligned inRange]
  obtain ⟨h, -⟩ | ⟨h, -⟩ | ⟨-, -, e⟩ := hostWrite_cases off v s
  · exact absurd h notCmd
  · exact absurd h notCtrl
  · exact e

/-- Reads at admitted offsets give the host their words, in order, and change nothing else (R56). -/
theorem performAll_reads (offs : List Nat) (s : State)
    (admissible : ∀ off ∈ offs, off % 4 = 0 ∧ off < s.params.decodeRange) :
    performAll (offs.map (memRead s.params)) s =
      .next { s with returned := s.returned ++ offs.map s.readOffset } := by
  induction offs generalizing s with
  | nil => simp [performAll]
  | cons off offs ih =>
    obtain ⟨⟨aligned, inRange⟩, rest⟩ := List.forall_mem_cons.1 admissible
    have tail := ih (s.returnWord (s.readOffset off)) rest
    simp only [List.map_cons, performAll, perform_memRead s off aligned inRange]
    calc performAll (offs.map (memRead s.params)) (s.returnWord (s.readOffset off))
        = .next { s with returned := (s.returned ++ [s.readOffset off]) ++ offs.map s.readOffset } := tail
      _ = .next { s with returned := s.returned ++ s.readOffset off :: offs.map s.readOffset } := by simp

/-- The words of `BUFW[0]` to `BUFW[LEN-1]` are the buffer's bytes (R103). -/
theorem windowWords_eq (s : State) (fits : s.len ≤ s.params.bufCap) :
    (List.range s.len).map (fun i => s.readOffset (0x400 + 4 * i)) = s.buf.map fun b => b.setWidth 32 := by
  apply List.ext_getElem
  · simp [State.len_eq]
  · intro i hi _
    have below : i < s.buf.length := by simpa [State.len_eq] using hi
    have inCap : i < s.params.bufCap := below.trans_le fits
    simp [s.readOffset_window i inCap, bufferWord, Memory.read?, below]

/-! ## The statements about registers and accesses -/

/-- Settles O8. -/
theorem ctrlWritesAndReadsStrict : Obligations.CtrlWritesAndReadsStrict := by
  refine ⟨fun s v legal => ⟨perform_ctrlWrite s v legal, ?_⟩, fun p => ?_⟩
  · exact (s.readOffset_named .ctrl (by decide)).trans (flagWord_eq s.strict)
  · exact (State.readOffset_named _ .ctrl (by decide)).trans (flagWord_eq false)

/-- Settles O9. -/
theorem statusRegisterPacksItsFields : Obligations.StatusRegisterPacksItsFields := by
  have status : ∀ s : State, s.readOffset 0x008 = s.statusWord := fun s => s.readOffset_named .status (by decide)
  refine ⟨fun s => ⟨?_, s.err.code_le_four, s.verdict.code_le_two, s.tag.code_le_four⟩,
    fun s legal => ⟨?_, fun v => ?_⟩, fun p => ?_⟩
  · rw [status, s.statusWord_toNat]
  · exact perform_memRead s 0x008 rfl (lt_decodeRange_of_named legal (by omega))
  · exact perform_ignoredWrite s 0x008 v rfl (lt_decodeRange_of_named legal (by omega)) (by omega) (by omega)
  · rw [status]
    exact BitVec.eq_of_toNat_eq (State.statusWord_toNat _)

/-- Settles O10, register by register. -/
theorem resultRegistersReadTheirFields : Obligations.ResultRegistersReadTheirFields := by
  refine ⟨fun p _ => ⟨?_, rfl⟩, fun s legal off mem v => ?_, fun s legal fits => ?_⟩
  · have check : (0#16).setWidth 32 ||| ((0#16).setWidth 32 <<< 16) = 0#32 := by decide
    have info : (0#8).setWidth 32 ||| ((0#9).setWidth 32 <<< 16) = 0#32 := by decide
    have text : packLanes 0 0 0 0 = 0 := by decide
    simp only [List.forall_mem_cons, List.not_mem_nil, false_imp_iff, implies_true, and_true]
    exact ⟨rfl, check, info, rfl, rfl, text, text⟩
  · have ranges : off % 4 = 0 ∧ off < 0x400 ∧ off ≠ 0x000 ∧ off ≠ 0x004 := by
      revert off
      decide
    obtain ⟨aligned, low, notCmd, notCtrl⟩ := ranges
    exact perform_ignoredWrite s off v aligned (lt_decodeRange_of_named legal low) notCmd notCtrl
  · obtain ⟨-, cap_le, -⟩ := legal
    have named := s.readOffset_named
    refine ⟨named .cmd (by decide), ?_, ?_, ?_, ?_, named .value (by decide), ?_, ?_, ?_, ?_⟩
    · exact (congrArg _ (named .len (by decide))).trans (halfWord_toNat s.len (fits.trans cap_le))
    · refine (congrArg _ (named .crc (by decide))).trans ?_
      simp only [State.readRegister, BitVec.toNat_setWidth]
      omega
    · exact (congrArg _ (named .check (by decide))).trans (halfPair_toNat s.calcCrc s.rxCrc)
    · exact (congrArg _ (named .frameinfo (by decide))).trans (frameInfo_toNat s.bcnt s.explen)
    · refine (congrArg _ (named .strinfo (by decide))).trans ?_
      simp only [State.readRegister, BitVec.toNat_setWidth]
      omega
    · exact (congrArg _ (named .str0 (by decide))).trans (packLanes_toNat _ _ _ _)
    · exact (congrArg _ (named .str1 (by decide))).trans (packLanes_toNat _ _ _ _)
    · exact (congrArg _ (named .cap (by decide))).trans (halfWord_toNat _ cap_le)

/-- Settles O11. -/
theorem bufferWindowAndUnmappedReads : Obligations.BufferWindowAndUnmappedReads := by
  intro s
  refine ⟨fun i below b hb => ?_, fun i below hnone => ?_, fun off _ low high => ?_, fun off _ past => ?_,
    fun legal off aligned low inRange => ⟨?_, fun v => ?_⟩⟩
  · have := b.isLt
    simp only [s.readOffset_window i below, bufferWord, Memory.read?, hb, BitVec.toNat_setWidth]
    omega
  · simp only [s.readOffset_window i below, bufferWord, Memory.read?, hnone]
  · exact s.readOffset_of_unmapped off (registerAt_gap _ off low high)
  · exact s.readOffset_of_unmapped off (registerAt_past_window _ off past)
  · exact perform_memRead s off aligned inRange
  · exact perform_ignoredWrite s off v aligned inRange (by omega) (by omega)

/-- Settles O56: a sequence of reads, whose words are the buffer's bytes. -/
theorem hostReadsTheFrameBack : Obligations.HostReadsTheFrameBack := by
  intro s legal fits
  obtain ⟨-, -, range⟩ := legal
  have reads := performAll_reads ((List.range s.len).map fun i => 0x400 + 4 * i) s (by
    intro off mem
    obtain ⟨i, below, rfl⟩ := List.mem_map.1 mem
    have := List.mem_range.1 below
    omega)
  simpa only [List.map_map, Function.comp_def, windowWords_eq s fits] using reads

end Sys2Proof.Machine
end

section
/-! The statements about each command: what it does to the buffer, the accumulator, the policy and `ERR`, and what
HDRLEN, VALIDATE and DECODE depend on. -/

namespace Sys2Proof.Machine

/-! ## The word of a command -/

/-- 30_encoding.md R71, R74: the decoder gives back the command whose word it reads. -/
theorem decode_encode (i : Instr) : decode (encode i) = .ok i := by
  cases i with
  | push b => revert b; decide
  | crcByte b => revert b; decide
  | _ => rfl

/-- The host's write of a command's word performs the command (R70). -/
theorem perform_commandWrite (s : State) (i : Instr) (legal : s.params.Ok) :
    perform (commandWrite s.params i) s = exec i s := by
  rw [commandWrite, perform_cmdWrite s _ legal, issueCommand, decode_encode]

/-! ## One field at a time -/

/-- What is left of the buffer (10_state.md R23): nothing after CLEAR, and else the bytes it had, with at most two more
that fit, and more only after PUSH and APPEND. -/
theorem CommandEffect.buffer {i : Instr} {s t : State} (h : CommandEffect s i t) :
    (i = .clear ∧ t.buf = []) ∨ (i ≠ .clear ∧ t.buf = s.buf) ∨
      ∃ bs : List Byte, (i = .append ∨ ∃ b, i = .push b) ∧ bs.length ≤ 2 ∧
        (s.len ≤ s.params.bufCap → s.len + bs.length ≤ s.params.bufCap) ∧ t.buf = s.buf ++ bs := by
  cases h with
  | clear => exact .inl ⟨rfl, rfl⟩
  | push b room =>
    exact .inr (.inr ⟨[b], .inr ⟨b, rfl⟩, by simp, fun fits => Nat.lt_of_le_of_ne fits room, rfl⟩)
  | append room => exact .inr (.inr ⟨checksumBytes s.buf, .inl rfl, Nat.le_refl 2, fun _ => room, rfl⟩)
  | tooShort i frame | incomplete i frame =>
    exact .inr (.inl ⟨by rintro rfl; simp at frame, rfl⟩)
  | decodeMatch | decodeLenient => exact .inr (.inl ⟨by simp, by simp⟩)
  | _ => exact .inr (.inl ⟨by simp, rfl⟩)

/-- Settles O23. -/
theorem noCommandChangesAByteInTheBuffer : Obligations.NoCommandChangesAByteInTheBuffer := by
  refine fun i s => completes_of_effect fun t effect => ?_
  obtain ⟨params, -⟩ := effect.frame
  obtain ⟨rfl, empty⟩ | ⟨other, same⟩ | ⟨bs, grows, two, fits, grown⟩ := effect.buffer
  · simp [State.len_eq, empty]
  · simp [State.len_eq, same, params, other]
  · have length : t.len = s.len + bs.length := by simp [State.len_eq, grown]
    refine ⟨by rintro rfl; simp at grows, fun _ => ⟨fun a below => ?_, by omega, by omega⟩, fun _ => grows,
      fun h => ?_⟩
    · rw [grown, Memory.read?_append_left s.buf bs a below]
    · rw [length, params]
      exact fits h

/-- Settles O15, by the outcomes of an event and of a command. -/
theorem onlyCtrlWritesAndResetChangeStrict : Obligations.OnlyCtrlWritesAndResetChangeStrict := by
  refine ⟨fun s e t performed => ?_, fun s i => completes_of_effect fun t effect => ?_⟩
  · cases eventEffect_of_perform performed with
    | command w i t _ ran =>
      obtain ⟨-, strict, -⟩ := (commandEffect_of_exec ran).frame
      exact .inl strict
    | ctrl v => exact .inr (.inr ⟨v, rfl, rfl⟩)
    | reset => exact .inr (.inl ⟨rfl, rfl⟩)
    | read | illegal | ignored => exact .inl rfl
  · obtain ⟨-, strict, -⟩ := effect.frame
    exact strict

/-- The codes a command records (10_state.md R27). -/
theorem CommandEffect.err {i : Instr} {s t : State} (h : CommandEffect s i t) :
    t.err = .none ∨ (t.err = .shortFrame ∧ (i = .hdrlen ∨ i = .validate ∨ i = .decode)) ∨
      (t.err = .checksumMismatch ∧ (i = .validate ∨ i = .decode)) ∨
      (t.err = .bufferOverflow ∧ (i = .append ∨ ∃ b, i = .push b)) := by
  cases h with
  | pushFull b => exact .inr (.inr (.inr ⟨rfl, .inr ⟨b, rfl⟩⟩))
  | appendFull => exact .inr (.inr (.inr ⟨rfl, .inl rfl⟩))
  | hdrlenShort => exact .inr (.inl ⟨rfl, .inl rfl⟩)
  | tooShort i frame | incomplete i frame => exact .inr (.inl ⟨rfl, .inr frame⟩)
  | validateMismatch => exact .inr (.inr (.inl ⟨rfl, .inl rfl⟩))
  | decodeStrict => exact .inr (.inr (.inl ⟨rfl, .inr rfl⟩))
  | decodeLenient => exact .inr (.inr (.inl ⟨by simp, .inr rfl⟩))
  | decodeMatch => exact .inl (by simp)
  | clear | push | crcInit | crcByte | crcBuf | append | hdrlen | validateMatch => exact .inl rfl

/-- Every command begins by writing `ERR`, so none reads the old one (00_scope.md R11). -/
theorem exec_setErr (i : Instr) (s : State) (e : ErrCode) : exec i (s.setErr e) = exec i s := by
  cases i <;> rfl

/-- Settles O50. -/
theorem errorCodesAndTheirWriters : Obligations.ErrorCodesAndTheirWriters := by
  refine ⟨⟨rfl, rfl, rfl, rfl, rfl⟩, fun i s => completes_of_effect fun t effect => ?_, exec_setErr,
    fun s t addr bytes => ⟨fun performed => ?_, fun v notCmd performed => ?_⟩⟩
  · obtain e | ⟨e, cause⟩ | ⟨e, cause⟩ | ⟨e, cause⟩ := effect.err
    · simp [e]
    all_goals simp [e, cause]
  · cases eventEffect_of_perform performed
    rfl
  · cases eventEffect_of_perform performed with
    | command | illegal => exact absurd rfl notCmd
    | ctrl | ignored => rfl

/-! ## Noninterference of HDRLEN, VALIDATE and DECODE -/

/-- `t` with the fields of `o` that HDRLEN, VALIDATE and DECODE neither read nor write: the parameters, `CRC` and the
host's side. -/
def State.withUnread (t o : State) : State :=
  { t with params := o.params, crc := o.crc, pending := o.pending, returned := o.returned }

/-- What is left after the result groups are cleared is the buffer, the policy and the unread fields. -/
theorem State.cleared_eq_withUnread {s o : State} (buf : s.buf = o.buf) (strict : s.strict = o.strict) :
    o.startCommand.clearResults = s.startCommand.clearResults.withUnread o := by
  simp [State.withUnread, State.startCommand, State.setErr, State.clearResults, State.clearHeader, State.clearCheck,
    State.clearValue, buf, strict]

section
variable (t o : State)

@[simp] theorem State.withUnread_strict : (t.withUnread o).strict = t.strict := rfl
@[simp] theorem State.withUnread_fail (e : ErrCode) : (t.withUnread o).fail e = (t.fail e).withUnread o := rfl
@[simp] theorem State.withUnread_warn (e : ErrCode) : (t.withUnread o).warn e = (t.warn e).withUnread o := rfl
@[simp] theorem State.withUnread_extractHeader :
    (t.withUnread o).extractHeader = t.extractHeader.withUnread o := rfl
@[simp] theorem State.withUnread_compareChecksum :
    (t.withUnread o).compareChecksum = t.compareChecksum.withUnread o := rfl

@[simp] theorem State.withUnread_decodePayload :
    (t.withUnread o).decodePayload = t.decodePayload.withUnread o := by
  simp only [State.decodePayload, show (t.withUnread o).bcnt = t.bcnt from rfl]
  cases tagOf t.bcnt <;> rfl

end

theorem checkFrame_withUnread {s o : State} (buf : s.buf = o.buf) (strict : s.strict = o.strict) :
    checkFrame o.startCommand =
      ((checkFrame s.startCommand).1, (checkFrame s.startCommand).2.withUnread o) := by
  simp only [checkFrame, State.len_eq, State.startCommand_buf, ← buf, State.cleared_eq_withUnread buf strict]
  by_cases short : s.buf.length < 5
  · simp [short]
  · by_cases incomplete : s.buf.length < (byteCount s.buf).toNat + 5
    · simp [short, incomplete]
    · simp only [short, incomplete, expectedLen_toNat, if_false]
      rfl

/-- The three commands of the frame validator and decoder do the same on two states with one buffer and one policy,
but for the fields they leave alone. -/
theorem exec_withUnread {i : Instr} {s o : State} (frame : i = .hdrlen ∨ i = .validate ∨ i = .decode)
    (buf : s.buf = o.buf) (strict : s.strict = o.strict) :
    ∃ t, exec i s = .next t ∧ exec i o = .next (t.withUnread o) := by
  obtain rfl | rfl | rfl := frame
  · simp only [exec, execHdrlen, State.len_eq, ← buf, State.cleared_eq_withUnread buf strict]
    by_cases short : s.buf.length < 3
    · exact ⟨s.startCommand.clearResults.fail .shortFrame, by simp [short], by simp [short]⟩
    · exact ⟨s.startCommand.clearResults.extractHeader, by simp [short], by simp [short]⟩
  · simp only [exec, execValidate, checkFrame_withUnread buf strict]
    rcases checkFrame s.startCommand with ⟨_ | _ | _, t⟩
    · exact ⟨t.fail .shortFrame, rfl, rfl⟩
    · exact ⟨t, rfl, rfl⟩
    · exact ⟨t.warn .checksumMismatch, rfl, rfl⟩
  · simp only [exec, execDecode, checkFrame_withUnread buf strict]
    rcases checkFrame s.startCommand with ⟨_ | _ | _, t⟩
    · exact ⟨t.fail .shortFrame, rfl, rfl⟩
    · exact ⟨t.decodePayload, rfl, by simp⟩
    · cases policy : t.strict
      · exact ⟨(t.warn .checksumMismatch).decodePayload, by simp [policy], by simp [policy]⟩
      · exact ⟨t.fail .checksumMismatch, by simp [policy], by simp [policy]⟩

/-- Settles O48. -/
theorem resultsDependOnTheBufferAlone : Obligations.ResultsDependOnTheBufferAlone := by
  intro i s o frame buf strict
  obtain ⟨t, ht, ho⟩ := exec_withUnread frame buf strict
  exact ⟨t, t.withUnread o, ht, ho, rfl, rfl⟩

/-! ## The accumulator -/

/-- R25: what a command leaves in `CRC`. -/
def crcAfter (s : State) : Instr → Half
  | .clear => 0xFFFF#16
  | .crcInit => 0xFFFF#16
  | .crcByte b => crcStep s.crc b
  | .crcBuf => checksum s.buf
  | .append => if s.len + 2 ≤ s.params.bufCap then checksum s.buf else s.crc
  | .push _ | .hdrlen | .validate | .decode => s.crc

theorem CommandEffect.crc {i : Instr} {s t : State} (h : CommandEffect s i t) : t.crc = crcAfter s i := by
  cases h with
  | append room => exact (if_pos room).symm
  | appendFull full => exact (if_neg (Nat.not_le.2 full)).symm
  | tooShort i frame | incomplete i frame => obtain rfl | rfl := frame <;> rfl
  | decodeMatch | decodeLenient => simp [crcAfter]
  | _ => rfl

/-- VALIDATE and DECODE end the same but for `CRC` whatever `CRC` held. -/
theorem exec_setCrc {i : Instr} {s t : State} (frame : i = .validate ∨ i = .decode) (ran : exec i s = .next t)
    (x : Half) : exec i (s.setCrc x) = .next (t.setCrc x) := by
  obtain ⟨u, hu, ho⟩ := exec_withUnread (s := s) (o := s.setCrc x) (.inr frame) rfl rfl
  cases hu.symm.trans ran
  obtain ⟨params, -, pending, returned⟩ := (commandEffect_of_exec ran).frame
  rw [ho]
  simp [State.withUnread, State.setCrc, params, pending, returned]

/-- Settles O34. -/
theorem whatEachCommandDoesToTheAccumulator : Obligations.WhatEachCommandDoesToTheAccumulator := by
  refine ⟨fun i s => completes_of_effect fun t effect => ?_, fun s x => ?_⟩
  · rw [effect.crc]
    cases i <;> rfl
  · obtain ⟨t, ht, -⟩ := exec_effect .validate s
    obtain ⟨u, hu, -⟩ := exec_effect .decode s
    exact ⟨t, u, ht, hu, exec_setCrc (.inl rfl) ht x, exec_setCrc (.inr rfl) hu x⟩

/-! ## Short statements about commands, steps and reset -/

/-- Settles O16. -/
theorem stepRunsTheDecodedCommand : Obligations.StepRunsTheDecodedCommand := by
  have issue : ∀ (s : State) (w : Word) (rest : List HostEvent) (i : Instr), s.params.Ok →
      s.pending = memWrite s.params 0x000 w :: rest → decode w = .ok i →
      step s = exec i (s.takeEvent rest) := by
    intro s w rest i legal next decoded
    rw [step, next]
    exact (perform_cmdWrite (s.takeEvent rest) w legal).trans (by rw [issueCommand, decoded])
  refine ⟨fun s w rest i legal next decoded _ => issue s w rest i legal next decoded, fun s i legal => ?_⟩
  refine issue (s.withFetchWord 32 (encode i).toNat) (encode i) s.pending i legal ?_ (decode_encode i)
  have word : BitVec.ofNat 32 ((encode i).toNat % 2 ^ 32) = encode i := by
    rw [Nat.mod_eq_of_lt (encode i).isLt, BitVec.ofNat_toNat, BitVec.setWidth_eq]
  simp only [State.withFetchWord, word, State.takeEvent_pending, State.takeEvent_params]

/-- Settles O17. -/
theorem silentHostLeavesTheStateAlone : Obligations.SilentHostLeavesTheStateAlone := by
  intro s silent
  obtain ⟨-, e⟩ | ⟨event, rest, next, -⟩ := step_cases s
  · exact e
  · simp [silent] at next

/-- Settles O19. -/
theorem resetValues : Obligations.ResetValues := by
  refine ⟨rfl, rfl, rfl, fun p legal => ?_⟩
  obtain ⟨-, cap_le, -⟩ := legal
  have cap := (State.resetWith p).readOffset_named .cap (by decide)
  exact ⟨rfl, rfl, rfl, rfl, rfl, rfl, rfl, rfl, rfl, rfl, rfl, rfl, rfl, rfl, by simp [State.resetWith],
    (congrArg _ cap).trans (halfWord_toNat p.bufCap cap_le)⟩

/-- Settles O21. -/
theorem clearStartsAFreshFrame : Obligations.ClearStartsAFreshFrame :=
  ⟨by decide, fun _ => ⟨rfl, rfl⟩⟩

/-- Settles O35. -/
theorem expectedLengthOfAFrame : Obligations.ExpectedLengthOfAFrame := by
  intro b0 b1 b rest
  have := b.isLt
  rw [expectedLen_toNat]
  exact ⟨rfl, by omega, by omega, by omega⟩

/-- Settles O12. -/
theorem sideEffectsOfHostAccesses : Obligations.SideEffectsOfHostAccesses := by
  refine fun s legal => ⟨fun off aligned inRange => perform_memRead s off aligned inRange, fun v => ?_,
    fun off v aligned inRange notCmd notCtrl => perform_ignoredWrite s off v aligned inRange notCmd notCtrl,
    fun b room => ?_⟩
  · have again : perform (memWrite s.params 0x004 v) (s.writeCtrl v) = .next (s.writeCtrl v) :=
      perform_ctrlWrite (s.writeCtrl v) v legal
    simp only [performAll, perform_ctrlWrite s v legal, again]
  · have first := perform_commandWrite s (.push b) legal
    have second := perform_commandWrite (s.startCommand.appendBytes [b]) (.push b) legal
    have fits : s.len ≠ s.params.bufCap := by omega
    have fits' : (s.startCommand.appendBytes [b]).len ≠ s.params.bufCap := by
      simp only [State.len_eq] at room ⊢
      simp
      omega
    rw [exec, execPush, if_neg fits] at first
    rw [exec, execPush, State.appendBytes_params, State.startCommand_params, if_neg fits'] at second
    simp only [performAll, first, second]
    simp [State.appendBytes, State.startCommand, State.setErr]

/-! ## Programs of the assembler (70_reset_and_hazards.md R201) -/

/-- Admitted events performed in order complete, and leave the parameters and the events still to come. -/
theorem performAll_completes (es : List HostEvent) (s : State) (admissible : ∀ e ∈ es, e.Admitted s.params) :
    Completes (performAll es s) fun t => t.params = s.params ∧ t.pending = s.pending := by
  induction es generalizing s with
  | nil => exact ⟨s, rfl, rfl, rfl⟩
  | cons e es ih =>
    obtain ⟨head, tail⟩ := List.forall_mem_cons.1 admissible
    obtain ⟨t, ht, effect⟩ := perform_effect s e head
    obtain ⟨params, pending⟩ := effect.frame
    obtain ⟨u, hu, params', pending'⟩ := ih t (by rwa [params])
    exact ⟨u, by rw [performAll, ht]; exact hu, params'.trans params, pending'.trans pending⟩

/-- Every access of a program the assembler takes is at an offset of the block's own that is a multiple of 4. -/
theorem assemble_offset (p : Params) (legal : p.Ok) (ls : List Line) (as : List HostAccess)
    (taken : assemble p.bufCap ls = .ok as) : ∀ a ∈ as, a.offset % 4 = 0 ∧ a.offset < p.decodeRange := by
  induction ls generalizing as with
  | nil =>
    cases taken
    simp
  | cons l ls ih =>
    cases hl : assembleLine p.bufCap l <;> cases hs : assemble p.bufCap ls <;> simp [assemble, hl, hs] at taken
    subst taken
    intro a mem
    obtain mem | mem := List.mem_append.1 mem
    · exact assembleLine_offset p legal l _ hl a mem
    · exact ih _ hs a mem

theorem programEvents_admitted (p : Params) (legal : p.Ok) (ls : List Line) (es : List HostEvent)
    (taken : programEvents p ls = .ok es) : ∀ e ∈ es, e.Admitted p := by
  cases h : assemble p.bufCap ls <;> simp [programEvents, h, Except.map] at taken
  subst taken
  intro e mem
  obtain ⟨a, ha, rfl⟩ := List.mem_map.1 mem
  obtain ⟨aligned, inRange⟩ := assemble_offset p legal ls _ h a ha
  exact a.event_admitted p aligned inRange

/-- Settles O14. -/
theorem admittedEventsComplete : Obligations.AdmittedEventsComplete := by
  refine ⟨fun s e admissible => ?_, fun s ls es legal taken => ?_⟩
  · obtain ⟨t, ht, effect⟩ := perform_effect s e admissible
    exact ⟨t, ht, effect.frame⟩
  · have admissible := programEvents_admitted s.params legal ls es taken
    exact ⟨admissible, performAll_completes es s admissible⟩

end Sys2Proof.Machine
end

section
/-! DECODE against the source's `decode(response)` (10_state.md R34, 43_decoder.md R155): each part of what the block
computes, read off as the source's list operations give it, and then the outcomes of DECODE one by one. -/

namespace Sys2Proof.Machine

/-! ## The parts of the payload's value -/

theorem slice_eq_drop_take (m : List Byte) (a n : Nat) : slice m a (a + n) = (m.drop a).take n := by
  rw [slice, List.drop_take, Nat.add_sub_cancel_left]

theorem State.payload_eq (s : State) : s.payload = (s.buf.drop 3).take s.bcnt.toNat :=
  slice_eq_drop_take s.buf 3 s.bcnt.toNat

/-- R150: two bytes, big-endian, are one after the other. -/
theorem decU16_eq_append (a b : Byte) : decU16 [a, b] = a ++ b :=
  calc decU16 [a, b] = (a ++ b).setWidth 16 := BitVec.setWidth_append_eq_shiftLeft_setWidth_or.symm
    _ = a ++ b := BitVec.setWidth_eq (a ++ b)

/-- R151: four bytes, big-endian, are one after the other. -/
theorem decU32_eq_append (a b c d : Byte) : decU32 [a, b, c, d] = a ++ b ++ c ++ d :=
  calc decU32 [a, b, c, d]
      = a.setWidth 32 <<< (8 + 8 + 8) ||| b.setWidth 32 <<< (8 + 8) ||| c.setWidth 32 <<< 8 ||| d.setWidth 32 := rfl
    _ = (a ++ b ++ c ++ d).setWidth 32 := BitVec.setWidth_append_append_append_eq_shiftLeft_setWidth_or.symm
    _ = a ++ b ++ c ++ d := BitVec.setWidth_eq (a ++ b ++ c ++ d)

theorem exists_four_bytes (p : List Byte) (four : p.length = 4) : ∃ a b c d, p = [a, b, c, d] :=
  match p, four with
  | [a, b, c, d], _ => ⟨a, b, c, d, rfl⟩

theorem isTrimmed_eq (b : Byte) : isTrimmed b = [0, 32, 13, 10].contains b.toNat := by
  revert b
  decide

/-- R152, R153: the text of a payload is the source's filter and trim. -/
theorem ascii8Trim_eq (p : List Byte) : ascii8Trim p =
    ((p.filter fun b => b.toNat < 128).dropWhile fun b => [0, 32, 13, 10].contains b.toNat).rdropWhile
      fun b => [0, 32, 13, 10].contains b.toNat := by
  have trimmed : isTrimmed = fun b => [0, 32, 13, 10].contains b.toNat := funext isTrimmed_eq
  rw [← trimmed]
  rfl

/-- The text that `STR` and `STRLEN` hold is the text put there. -/
theorem State.text_setString (s : State) (t : List Byte) (short : t.length ≤ 8) :
    (s.setString t).str.toList.take (s.setString t).strlen.toNat = t := by
  rw [s.strlen_setString t short]
  apply List.ext_getElem
  · simp [short]
  · intro i _ below
    simp [below]

theorem referenceValue_raw {n : Nat} (n2 : n ≠ 2) (n4 : n ≠ 4) (n8 : n ≠ 8) (p : List Byte) :
    referenceValue n p = .raw p := by
  unfold referenceValue
  split
  · exact absurd rfl n2
  · exact absurd rfl n4
  · exact absurd rfl n8
  · rfl

/-- The value DECODE leaves for a payload that is all there is the source's step 4. -/
theorem State.decodedValue_decodePayload (s : State) (whole : s.payload.length = s.bcnt.toNat) :
    s.decodePayload.decodedValue = referenceValue s.bcnt.toNat s.payload := by
  obtain ⟨n, e⟩ | ⟨n, e⟩ | ⟨n, e⟩ | ⟨n2, n4, n8, e⟩ := s.decodePayload_cases <;> rw [e]
  · obtain ⟨a, b, bytes⟩ := List.length_eq_two.1 (whole.trans (by rw [n]; rfl))
    have low : ((decU16 [a, b]).setWidth 32).extractLsb' 0 16 = decU16 [a, b] := by
      have := (decU16 [a, b]).isLt
      apply BitVec.eq_of_toNat_eq
      simpa using this
    simp only [State.decodedValue, State.setValue_tag, State.setTag_tag, State.setValue_value, bytes, low, n]
    rw [decU16_eq_append]
    rfl
  · obtain ⟨a, b, c, d, bytes⟩ := exists_four_bytes s.payload (whole.trans (by rw [n]; rfl))
    simp only [State.decodedValue, State.setValue_tag, State.setTag_tag, State.setValue_value, bytes, n]
    rw [decU32_eq_append]
    rfl
  · have text := (s.setTag .ascii).text_setString (ascii8Trim s.payload) (s.text_length_le n)
    simp only [State.decodedValue, State.setString_tag, State.setTag_tag, text, n]
    rw [ascii8Trim_eq]
    rfl
  · have count : ∀ k : Byte, s.bcnt ≠ k → s.bcnt.toNat ≠ k.toNat := fun k h e => h (BitVec.eq_of_toNat_eq e)
    rw [referenceValue_raw (count 2 n2) (count 4 n4) (count 8 n8)]
    rfl

/-! ## The check of the frame -/

theorem drop_length_sub_two (m : List Byte) (two : 2 ≤ m.length) :
    m.drop (m.length - 2) = [byteAt m (m.length - 2), byteAt m (m.length - 1)] := by
  have next : m.length - 2 + 1 = m.length - 1 := by omega
  rw [List.drop_eq_getElem_cons (by omega), next, List.drop_eq_getElem_cons (by omega),
    List.drop_eq_nil_of_le (by omega), byteAt_eq_getElem m _ (by omega), byteAt_eq_getElem m _ (by omega)]

/-- The verdict of a complete frame is the source's comparison of its last two bytes. -/
theorem State.checkedFrame_verdict_iff (s : State) (whole : s.FrameComplete) :
    s.checkedFrame.verdict = .matched ↔ s.buf.drop (s.buf.length - 2) =
      [(checksum (s.buf.take (s.buf.length - 2))).extractLsb' 0 8,
        (checksum (s.buf.take (s.buf.length - 2))).extractLsb' 8 8] := by
  obtain ⟨five, -⟩ := whole
  rw [s.len_eq] at five
  rw [State.checkedFrame_verdict, verdictOf_eq_matched_iff, drop_length_sub_two s.buf (by omega), slice_from_zero]
  simp [State.len_eq, lo, hi]

/-- What the source's steps 3 and 4 answer for a complete frame. -/
theorem referenceDecode_of_complete (strict : Bool) (s : State) (whole : s.FrameComplete) :
    referenceDecode strict s.buf =
      if s.checkedFrame.verdict = .matched then
        (referenceValue s.checkedFrame.bcnt.toNat s.checkedFrame.payload, none)
      else if strict then (.absent, some .checksumMismatch)
      else (referenceValue s.checkedFrame.bcnt.toNat s.checkedFrame.payload, some .checksumMismatch) := by
  have verdict := s.checkedFrame_verdict_iff whole
  obtain ⟨five, count⟩ := whole
  rw [s.len_eq] at five count
  have long : ¬ s.buf.length < 3 + (s.buf.getD 2 0).toNat + 2 := by
    rw [byteCount, byteAt] at count
    omega
  simp only [referenceDecode, Nat.not_lt.2 five, long, if_false, verdict, State.payload_eq, State.checkedFrame_buf,
    State.checkedFrame_bcnt, byteCount, byteAt]

/-- What DECODE's value is on a checked frame, whatever code is recorded beside it. -/
theorem State.decodedValue_checkedFrame (s : State) (whole : s.FrameComplete) (e : ErrCode) :
    (s.checkedFrame.setErr e).decodePayload.decodedValue =
      referenceValue s.checkedFrame.bcnt.toNat s.checkedFrame.payload :=
  (s.checkedFrame.setErr e).decodedValue_decodePayload
    (payload_in_range s.startCommand.clearResults whole.2)

/-- Settles O46, outcome by outcome of DECODE. -/
theorem decodeRefinesTheSourceAlgorithm : Obligations.DecodeRefinesTheSourceAlgorithm := by
  intro s
  refine completes_of_effect fun t effect => ?_
  cases effect with
  | tooShort _ _ short =>
    rw [s.len_eq] at short
    simp [State.decodedValue, State.decodeReason, referenceDecode, short]
  | incomplete _ _ short =>
    obtain ⟨five, short⟩ := short
    rw [s.len_eq] at five short
    rw [byteCount, byteAt] at short
    have short' : s.buf.length < 3 + (s.buf.getD 2 0).toNat + 2 := by omega
    simp only [referenceDecode, Nat.not_lt.2 five, short', if_false, if_true]
    exact ⟨rfl, rfl⟩
  | decodeMatch whole verdict =>
    rw [referenceDecode_of_complete s.strict s whole, if_pos verdict]
    exact ⟨Prod.ext (s.decodedValue_checkedFrame whole .none) (by simp [State.decodeReason]), by simp⟩
  | decodeStrict whole verdict policy =>
    rw [referenceDecode_of_complete s.strict s whole, if_neg (by rw [verdict]; decide), if_pos policy]
    exact ⟨rfl, rfl⟩
  | decodeLenient whole verdict policy =>
    rw [referenceDecode_of_complete s.strict s whole, if_neg (by rw [verdict]; decide), if_neg (by simp [policy])]
    exact ⟨Prod.ext (s.decodedValue_checkedFrame whole .checksumMismatch) (by simp [State.decodeReason]), by simp⟩

end Sys2Proof.Machine
end

section
/-! The assembler (30_encoding.md R79 to R85): the hex digits, which texts are bytes, and which lines are taken. -/

namespace Sys2Proof.Machine

/-! ## Hex text (R84) -/

theorem char_le_iff_toNat_le (c d : Char) : c ≤ d ↔ c.toNat ≤ d.toNat := Iff.rfl

/-- The accepted characters by number. -/
theorem isHexChar_iff (c : Char) : isHexChar c = true ↔
    (48 ≤ c.toNat ∧ c.toNat ≤ 57) ∨ (97 ≤ c.toNat ∧ c.toNat ≤ 102) ∨ (65 ≤ c.toNat ∧ c.toNat ≤ 70) := by
  simp [isHexChar, char_le_iff_toNat_le, or_assoc]

/-- A character has a digit's value exactly where it is accepted. -/
theorem isSome_hexDigit (c : Char) : (hexDigit c).isSome = isHexChar c := by
  rw [Bool.eq_iff_iff, isHexChar_iff, hexDigit]
  split_ifs <;> simp <;> omega

/-- A character that is not one of the 22 digits is not accepted. -/
theorem isHexChar_eq_false_of_not_mem (c : Char) (h : c ∉ "0123456789abcdefABCDEF".toList) : isHexChar c = false := by
  have digits : ∀ n < 128, isHexChar (Char.ofNat n) = true → Char.ofNat n ∈ "0123456789abcdefABCDEF".toList := by
    decide +kernel
  rw [← Bool.not_eq_true]
  intro accepted
  have ascii : c.toNat < 128 := by
    rw [isHexChar_iff] at accepted
    omega
  have mem := digits c.toNat ascii
  rw [Char.ofNat_toNat] at mem
  exact h (mem accepted)

theorem wellFormedHex_cons_cons (h l : Char) (t : List Char) :
    wellFormedHex (h :: l :: t) = (isHexChar h && isHexChar l && wellFormedHex t) := by
  have parity : (t.length + 1 + 1) % 2 = t.length % 2 := by omega
  cases hh : isHexChar h <;> cases hl : isHexChar l <;> simp [wellFormedHex, parity, hh, hl]

theorem isSome_hexBytes_cons_cons (h l : Char) (t : List Char) :
    (hexBytes (h :: l :: t)).isSome = ((hexDigit h).isSome && (hexDigit l).isSome && (hexBytes t).isSome) := by
  cases hh : hexDigit h <;> cases hl : hexDigit l <;> cases ht : hexBytes t <;> simp [hexBytes, hh, hl, ht]

/-- Hex text is bytes exactly where it is well formed. -/
theorem isSome_hexBytes (t : List Char) : (hexBytes t).isSome = wellFormedHex t := by
  induction t using List.twoStepInduction with
  | nil => rfl
  | singleton c => simp [hexBytes, wellFormedHex]
  | cons_cons h l t ih =>
    rw [isSome_hexBytes_cons_cons, wellFormedHex_cons_cons, isSome_hexDigit, isSome_hexDigit, ih]

/-- R84's two reasons why a text is malformed. -/
theorem wellFormedHex_eq_false (t : List Char)
    (malformed : t.length % 2 = 1 ∨ ∃ c ∈ t, c ∉ "0123456789abcdefABCDEF".toList) : wellFormedHex t = false := by
  obtain odd | ⟨c, mem, other⟩ := malformed
  · simp [wellFormedHex, odd]
  · have : t.all isHexChar = false := List.all_eq_false.2 ⟨c, mem, by simp [isHexChar_eq_false_of_not_mem c other]⟩
    simp [wellFormedHex, this]

/-! ## Which lines are taken -/

theorem byteOperands_ok_iff (ns : List Nat) :
    (ns.all fun n => decide (n < 256)) = true ↔ ∃ bs, byteOperands ns = .ok bs := by
  obtain ⟨taken, e⟩ | ⟨⟨n, mem, high⟩, e⟩ := byteOperands_cases ns
  · simpa [e] using taken
  · simpa [e] using ⟨n, mem, high⟩

/-- `Except.map` takes a line exactly where its operand is taken. -/
theorem exists_map_ok_iff {α β : Type} (f : α → β) (o : Except AsmError α) :
    (∃ b, o.map f = .ok b) ↔ ∃ a, o = .ok a := by
  cases o <;> simp [Except.map]

/-- A line is taken exactly where it is well formed. -/
theorem wellFormed_iff_assembleLine (cap : Nat) (l : Line) :
    l.wellFormed cap = true ↔ ∃ as, assembleLine cap l = .ok as := by
  cases l with
  | push n | crcByte n =>
    obtain ⟨range, e⟩ | ⟨range, e⟩ := byteOperand_cases n <;>
      simp [Line.wellFormed, assembleLine, e, Except.map] <;> omega
  | word n | wrCtrl n =>
    obtain ⟨range, e⟩ | ⟨range, e⟩ := wordOperand_cases n <;>
      simp [Line.wellFormed, assembleLine, e, Except.map] <;> omega
  | rd r =>
    obtain ⟨range, e⟩ | ⟨range, e⟩ := registerOperand_cases cap r <;>
      simp [Line.wellFormed, assembleLine, e, range, Except.map]
  | pushB ns | rxFrame ns => exact (byteOperands_ok_iff ns).trans (exists_map_ok_iff _ _).symm
  | loadHex t =>
    rw [Line.wellFormed, assembleLine, ← isSome_hexBytes]
    cases hexBytes t <;> simp
  | build t =>
    rw [Line.wellFormed, assembleLine, ← isSome_hexBytes]
    cases hexBytes t <;> simp
  | clear | crcInit | crcBuf | append | hdrlen | validate | decode => simp [Line.wellFormed, assembleLine]

/-- Settles O57: which lines are taken, and the error of each line that is not. -/
theorem assemblerTakesExactlyWellFormedLines : Obligations.AssemblerTakesExactlyWellFormedLines := by
  refine fun cap => ⟨wellFormed_iff_assembleLine cap, fun b high => ?_, fun bs high => ?_, fun n high => ?_,
    fun i high => ?_, fun t malformed => ?_⟩
  · obtain ⟨low, -⟩ | ⟨-, e⟩ := byteOperand_cases b
    · omega
    · simp [assembleLine, e, Except.map]
  · obtain ⟨low, -⟩ | ⟨-, e⟩ := byteOperands_cases bs
    · obtain ⟨b, mem, high⟩ := high
      exact absurd (low b mem) (Nat.not_lt.2 high)
    · simp [assembleLine, e, Except.map]
  · obtain ⟨low, -⟩ | ⟨-, e⟩ := wordOperand_cases n
    · omega
    · simp [assembleLine, e, Except.map]
  · obtain ⟨below, -⟩ | ⟨-, e⟩ := registerOperand_cases cap (.bufw i)
    · simp [RegName.wellFormed] at below
      omega
    · simp [assembleLine, e, Except.map]
  · have none : hexBytes t = none := by
      rw [← Option.not_isSome_iff_eq_none, isSome_hexBytes, wellFormedHex_eq_false t malformed]
      decide
    simp [assembleLine, none]

/-! ## The words of the command lines -/

/-- The word with these fields, by number (R71). -/
theorem commandWord_eq (opc imm : Byte) : commandWord opc imm = BitVec.ofNat 32 (opc.toNat + 256 * imm.toNat) := by
  have := opc.isLt; have := imm.isLt
  apply BitVec.eq_of_toNat_eq
  rw [commandWord, toNat_or_shiftLeft] <;> simp only [BitVec.toNat_setWidth, BitVec.toNat_ofNat] <;> omega

/-- A class B line's word, by number (R80). -/
theorem commandWord_ofNat (opc : Byte) (n : Nat) (byte : n < 256) :
    commandWord opc (BitVec.ofNat 8 n) = BitVec.ofNat 32 (opc.toNat + 256 * n) := by
  rw [commandWord_eq, BitVec.toNat_ofNat, Nat.mod_eq_of_lt byte]

theorem wordOperand_toNat (w : Word) : wordOperand w.toNat = .ok w := by
  rw [wordOperand, if_pos w.isLt, BitVec.ofNat_toNat, BitVec.setWidth_eq]

/-- Settles O5. -/
theorem commandLinesAssembleToTheirWords : Obligations.CommandLinesAssembleToTheirWords := by
  refine ⟨by decide +kernel, fun cap => ⟨rfl, fun b byte => ?_, rfl, fun b byte => ?_, rfl, rfl, rfl, rfl, rfl,
    fun w => ?_, fun v => ?_, ?_, fun i below => ?_⟩⟩
  · simp [assembleLine, byteOperand, byte, Except.map, commandAccess, encode, commandWord_ofNat]
  · simp [assembleLine, byteOperand, byte, Except.map, commandAccess, encode, commandWord_ofNat]
  · rw [assembleLine, wordOperand_toNat, Except.map]
  · rw [assembleLine, wordOperand_toNat, Except.map]
  · simp only [List.forall_mem_cons, List.not_mem_nil, false_imp_iff, implies_true, and_true]
    exact ⟨rfl, rfl, rfl, rfl, rfl, rfl, rfl, rfl, rfl, rfl, rfl, rfl⟩
  · simp [assembleLine, registerOperand, RegName.wellFormed, below, Except.map, offsetOf]

end Sys2Proof.Machine
end

section
/-! The host's accesses as the steps of the core (20_memory.md R52, R58, R60): which accesses stop, and that no event
depends on the events still to come (log 2), so that stepping performs the host's accesses in its order. -/

namespace Sys2Proof.Machine

/-! ## Accesses that are not admitted -/

/-- An access outside the decode range stops there, whatever the block would do with it (R58, log 5). -/
theorem admitted_of_outside (p : Params) (addr bytes : Nat) (k : Nat → Host.Outcome State Fault Refusal)
    (outside : addr < p.base ∨ p.base + p.decodeRange ≤ addr) :
    admitted p addr bytes k = .refused .outsideBlock := by
  obtain ⟨-, refused⟩ | ⟨low, high, -⟩ | ⟨low, high, -⟩ := admitted_cases p addr bytes k
  · exact refused
  all_goals omega

/-- An access inside the decode range, of another width or at an offset between two registers, is stuck (R52, log 4). -/
theorem admitted_of_malformed (p : Params) (addr bytes : Nat) (k : Nat → Host.Outcome State Fault Refusal)
    (low : p.base ≤ addr) (high : addr < p.base + p.decodeRange)
    (malformed : bytes ≠ 4 ∨ (addr - p.base) % 4 ≠ 0) : admitted p addr bytes k = .fault .accessNotAdmitted := by
  obtain ⟨outside, -⟩ | ⟨-, -, -, stuck⟩ | ⟨-, -, width, aligned, -⟩ := admitted_cases p addr bytes k
  · omega
  · exact stuck
  · omega

/-- Settles O13. -/
theorem accessesNotAdmittedStop : Obligations.AccessesNotAdmittedStop := fun s addr bytes v =>
  ⟨fun low high malformed =>
    ⟨admitted_of_malformed s.params addr bytes (fun off => hostRead off s) low high malformed,
      admitted_of_malformed s.params addr bytes (fun off => hostWrite off v s) low high malformed⟩,
    fun outside =>
    ⟨admitted_of_outside s.params addr bytes (fun off => hostRead off s) outside,
      admitted_of_outside s.params addr bytes (fun off => hostWrite off v s) outside⟩⟩

/-! ## No event depends on the events still to come -/

/-- The outcome `o` with `rest` as the events still to come; a stop has no state, and stays as it is. -/
def awaiting (rest : List HostEvent) : Host.Outcome State Fault Refusal → Host.Outcome State Fault Refusal
  | .next t => .next (t.takeEvent rest)
  | .fault r => .fault r
  | .refused r => .refused r

section
variable (rest : List HostEvent)

@[simp] theorem awaiting_next (t : State) : awaiting rest (.next t) = .next (t.takeEvent rest) := rfl
@[simp] theorem awaiting_fault (r : Fault) : awaiting rest (.fault r) = .fault r := rfl
@[simp] theorem awaiting_refused (r : Refusal) : awaiting rest (.refused r) = .refused r := rfl

/-- HDRLEN, VALIDATE and DECODE read the buffer and the policy alone, and keep what they do not read. -/
theorem exec_takeEvent_of_frame {i : Instr} (frame : i = .hdrlen ∨ i = .validate ∨ i = .decode) (s : State) :
    exec i (s.takeEvent rest) = awaiting rest (exec i s) := by
  obtain ⟨t, ran, ran'⟩ := exec_withUnread (s := s) (o := s.takeEvent rest) frame rfl rfl
  have effect := commandEffect_of_exec ran
  obtain ⟨params, -, -, returned⟩ := effect.frame
  have crc : t.crc = s.crc := effect.crc.trans (by obtain rfl | rfl | rfl := frame <;> rfl)
  rw [ran, ran', awaiting_next]
  simp [State.withUnread, State.takeEvent, params, crc, returned]

theorem exec_takeEvent (i : Instr) (s : State) : exec i (s.takeEvent rest) = awaiting rest (exec i s) := by
  cases i with
  | clear | crcInit | crcByte | crcBuf => rfl
  | push | append =>
    simp only [exec, execPush, execAppend, apply_ite (awaiting rest)]
    rfl
  | hdrlen => exact exec_takeEvent_of_frame rest (.inl rfl) s
  | validate => exact exec_takeEvent_of_frame rest (.inr (.inl rfl)) s
  | decode => exact exec_takeEvent_of_frame rest (.inr (.inr rfl)) s

theorem issueCommand_takeEvent (w : Word) (s : State) :
    issueCommand w (s.takeEvent rest) = awaiting rest (issueCommand w s) := by
  cases decoded : decode w with
  | ok i => simpa only [issueCommand, decoded] using exec_takeEvent rest i s
  | error r => simp only [issueCommand, decoded]; rfl

theorem hostWrite_takeEvent (off : Nat) (v : Word) (s : State) :
    hostWrite off v (s.takeEvent rest) = awaiting rest (hostWrite off v s) := by
  obtain ⟨rfl, e⟩ | ⟨rfl, e⟩ | ⟨notCmd, notCtrl, e⟩ := hostWrite_cases off v s <;> rw [e]
  · exact issueCommand_takeEvent rest v s
  · rfl
  · obtain ⟨cmd, -⟩ | ⟨ctrl, -⟩ | ⟨-, -, ignored⟩ := hostWrite_cases off v (s.takeEvent rest)
    · exact absurd cmd notCmd
    · exact absurd ctrl notCtrl
    · exact ignored

/-- Whether an access is admitted does not depend on what it does at its offset. -/
theorem admitted_awaiting (p : Params) (addr bytes : Nat) (k : Nat → Host.Outcome State Fault Refusal) :
    admitted p addr bytes (fun off => awaiting rest (k off)) = awaiting rest (admitted p addr bytes k) := by
  simp only [admitted, apply_ite (awaiting rest), awaiting_fault, awaiting_refused]

/-- An event does the same, stops included, whatever events are still to come, and leaves these to come. -/
theorem perform_takeEvent (e : HostEvent) (s : State) :
    perform e (s.takeEvent rest) = awaiting rest (perform e s) := by
  cases e with
  | read addr bytes => exact admitted_awaiting rest s.params addr bytes fun off => hostRead off s
  | write addr bytes v =>
    calc perform (.write addr bytes v) (s.takeEvent rest)
        = admitted s.params addr bytes (fun off => awaiting rest (hostWrite off v s)) := by
          simp only [perform, State.takeEvent_params, hostWrite_takeEvent]
      _ = awaiting rest (perform (.write addr bytes v) s) := admitted_awaiting rest s.params addr bytes _
  | reset => rfl

end

/-! ## The steps of a list of events -/

/-- Settles O18, by induction on the host's events: each step performs the oldest of them, and its outcome is the one
`performAll` has, with other events still to come. -/
theorem stepsPerformTheHostsAccessesInOrder : Obligations.StepsPerformTheHostsAccessesInOrder := by
  intro es
  induction es with
  | nil => exact fun _ => rfl
  | cons e es ih =>
    intro s
    have stepped : Sys2Proof.core.step (s.takeEvent (e :: es)) = awaiting es (perform e s) :=
      perform_takeEvent es e s
    have performed := perform_takeEvent [] e s
    change Host.Core.run Sys2Proof.core (es.length + 1) (s.takeEvent (e :: es)) =
      performAll (e :: es) (s.takeEvent [])
    simp only [Host.Core.run, performAll, stepped, performed]
    cases perform e s with
    | next t => exact ih t
    | fault r => rfl
    | refused r => rfl

end Sys2Proof.Machine
end

section
/-! The decoder as the converse of the encoder (30_encoding.md R70 to R76, R86): a command word by the numbers of its
fields, the rows of the opcode map as equations with the encoder, and from these the words the decoder takes and what a
write of any other word does. -/

namespace Sys2Proof.Machine

/-! ## The fields of a word, by number (R71) -/

theorem opcField_toNat (w : Word) : (opcField w).toNat = w.toNat % 2 ^ 8 := by
  simp [opcField]

theorem immField_toNat (w : Word) : (immField w).toNat = w.toNat / 2 ^ 8 % 2 ^ 8 := by
  simp [immField, Nat.shiftRight_eq_div_pow]

theorem rsvField_toNat (w : Word) : (rsvField w).toNat = w.toNat / 2 ^ 16 := by
  have := w.isLt
  simp only [rsvField, BitVec.extractLsb'_toNat, Nat.shiftRight_eq_div_pow]
  omega

theorem commandWord_toNat (opc imm : Byte) : (commandWord opc imm).toNat = opc.toNat + 256 * imm.toNat := by
  have := opc.isLt; have := imm.isLt
  rw [commandWord_eq, BitVec.toNat_ofNat]
  omega

/-! ## The masks of the opcode map (R74) -/

/-- A class Z row's mask keeps the whole word. -/
theorem and_classZMask_eq_iff (w p : Word) : w &&& 0xFFFFFFFF#32 = p ↔ p = w := by
  rw [show (0xFFFFFFFF#32) = BitVec.allOnes 32 from rfl, BitVec.and_allOnes, eq_comm]

theorem getLsbD_classBMask (k : Nat) (word : k < 32) : (0xFFFF00FF#32).getLsbD k = decide (k < 8 ∨ 16 ≤ k) := by
  revert k
  decide

/-- A class B row's mask keeps `OPC` and `RSV`. -/
theorem and_classBMask (w : Word) :
    w &&& 0xFFFF00FF#32 = (opcField w).setWidth 32 ||| (rsvField w).setWidth 32 <<< 16 := by
  apply BitVec.eq_of_getLsbD_eq
  intro k word
  simp only [BitVec.getLsbD_and, getLsbD_classBMask k word, opcField, rsvField, BitVec.getLsbD_or,
    BitVec.getLsbD_setWidth, BitVec.getLsbD_shiftLeft, BitVec.getLsbD_extractLsb']
  by_cases opc : k < 8
  · have low : k < 16 := by omega
    simp [opc, low, word]
  · by_cases imm : k < 16
    · have high : ¬ 16 ≤ k := by omega
      simp [opc, imm, high]
    · have past : 16 ≤ k := by omega
      have bits : k - 16 < 16 := by omega
      have bits' : k - 16 < 32 := by omega
      simp [opc, imm, past, bits, bits', word]

theorem toNat_and_classBMask (w : Word) :
    (w &&& 0xFFFF00FF#32).toNat = w.toNat % 2 ^ 8 + 2 ^ 16 * (w.toNat / 2 ^ 16) := by
  have := w.isLt
  rw [and_classBMask, toNat_or_shiftLeft] <;>
    simp only [BitVec.toNat_setWidth, opcField_toNat, rsvField_toNat] <;> omega

/-- A word is a class B command's exactly where it matches the row under the mask and has the operand in `w[15:8]`. -/
theorem commandWord_eq_iff (opc imm : Byte) (w : Word) :
    commandWord opc imm = w ↔
      w &&& 0xFFFF00FF#32 = opc.setWidth 32 ∧ w.toNat / 2 ^ 8 % 2 ^ 8 = imm.toNat := by
  have := opc.isLt; have := imm.isLt; have := w.isLt
  rw [← BitVec.toNat_inj, ← BitVec.toNat_inj, commandWord_toNat, toNat_and_classBMask, BitVec.toNat_setWidth]
  omega

/-- What a class B row's test says of a word: it is the command's, with the word's own `IMM8`. -/
theorem and_classBMask_eq_iff (opc : Byte) (w : Word) :
    w &&& 0xFFFF00FF#32 = opc.setWidth 32 ↔ commandWord opc (immField w) = w := by
  rw [commandWord_eq_iff, immField_toNat, and_iff_left rfl]

/-! ## The decoder and the encoder (R74, R75) -/

/-- A word fits a row exactly where it is the word of the command that the row builds from it. -/
theorem fits_iff_encode_build (r : OpcodeRow) (row : r ∈ opcodeTable) (w : Word) :
    r.fits w = true ↔ encode (r.build (immField w)) = w := by
  rw [OpcodeRow.fits, beq_iff_eq]
  simp only [opcodeTable, List.mem_cons, List.not_mem_nil, or_false] at row
  rcases row with rfl | rfl | rfl | rfl | rfl | rfl | rfl | rfl | rfl
  case inr.inl => exact and_classBMask_eq_iff 0x02 w
  case inr.inr.inr.inl => exact and_classBMask_eq_iff 0x04 w
  all_goals exact and_classZMask_eq_iff w _

/-- The decoder gives a command for the command's own word, and for no other. -/
theorem decode_eq_ok_iff (w : Word) (i : Instr) : decode w = .ok i ↔ encode i = w := by
  constructor
  · intro decoded
    rw [decode] at decoded
    cases found : opcodeTable.find? fun r => r.fits w with
    | none => simp [found] at decoded
    | some r =>
      simp only [found, Except.ok.injEq] at decoded
      rw [← decoded]
      exact (fits_iff_encode_build r (List.mem_of_find?_eq_some found) w).1
        (by simpa using List.find?_some found)
  · rintro rfl
    exact decode_encode i

theorem encode_injective : Function.Injective encode := fun i j same =>
  Except.ok.inj ((decode_encode i).symm.trans ((decode_eq_ok_iff _ j).2 same.symm))

/-- Settles O1. -/
theorem decodeEncodeRoundTrip : Obligations.DecodeEncodeRoundTrip := fun i _ => decode_encode i

/-- Settles O3: a row's command is decoded from its own word alone, which the mask and the operand describe. -/
theorem opcodeMapByMatchAndMask : Obligations.OpcodeMapByMatchAndMask := by
  intro w
  have classZ : ∀ i : Instr, decode w = .ok i ↔ w &&& 0xFFFFFFFF#32 = encode i := fun i =>
    (decode_eq_ok_iff w i).trans (and_classZMask_eq_iff w (encode i)).symm
  exact ⟨classZ .clear, fun b => (decode_eq_ok_iff w (.push b)).trans (commandWord_eq_iff 0x02 b w), classZ .crcInit,
    fun b => (decode_eq_ok_iff w (.crcByte b)).trans (commandWord_eq_iff 0x04 b w), classZ .crcBuf, classZ .append,
    classZ .hdrlen, classZ .validate, classZ .decode⟩

/-! ## The legal words (R75) -/

theorem legalWord_commandWord_iff (opc imm : Byte) : LegalWord (commandWord opc imm) ↔
    opc.toNat ∈ [0x02, 0x04] ∨ (opc.toNat ∈ [0x01, 0x03, 0x05, 0x06, 0x07, 0x08, 0x09] ∧ imm.toNat = 0) := by
  have := opc.isLt; have := imm.isLt
  have rsv : (commandWord opc imm).toNat / 2 ^ 16 = 0 := by rw [commandWord_toNat]; omega
  have low : (commandWord opc imm).toNat % 2 ^ 8 = opc.toNat := by rw [commandWord_toNat]; omega
  have high : (commandWord opc imm).toNat / 2 ^ 8 % 2 ^ 8 = imm.toNat := by rw [commandWord_toNat]; omega
  rw [LegalWord, rsv, low, high, and_iff_right rfl]

theorem legalWord_encode (i : Instr) : LegalWord (encode i) := by
  cases i <;> simp [encode, legalWord_commandWord_iff]

/-- The command of a legal word, by its `OPC` (R74). -/
theorem exists_encode_eq_of_legalWord (w : Word) (legal : LegalWord w) : ∃ i, encode i = w := by
  have word : ∀ opc imm : Byte, w.toNat = opc.toNat + 256 * imm.toNat → commandWord opc imm = w :=
    fun opc imm sum => BitVec.eq_of_toNat_eq (by rw [commandWord_toNat, sum])
  obtain ⟨rsv, opc | ⟨opc, imm⟩⟩ := legal
  · have sum : w.toNat = w.toNat % 2 ^ 8 + 256 * (immField w).toNat := by rw [immField_toNat]; omega
    simp only [List.mem_cons, List.not_mem_nil, or_false] at opc
    obtain opc | opc := opc <;> rw [opc] at sum
    · exact ⟨.push (immField w), word 0x02 _ sum⟩
    · exact ⟨.crcByte (immField w), word 0x04 _ sum⟩
  · have sum : w.toNat = w.toNat % 2 ^ 8 + 256 * 0 := by omega
    simp only [List.mem_cons, List.not_mem_nil, or_false] at opc
    obtain opc | opc | opc | opc | opc | opc | opc := opc <;> rw [opc] at sum
    · exact ⟨.clear, word 0x01 0 sum⟩
    · exact ⟨.crcInit, word 0x03 0 sum⟩
    · exact ⟨.crcBuf, word 0x05 0 sum⟩
    · exact ⟨.append, word 0x06 0 sum⟩
    · exact ⟨.hdrlen, word 0x07 0 sum⟩
    · exact ⟨.validate, word 0x08 0 sum⟩
    · exact ⟨.decode, word 0x09 0 sum⟩

/-- R75's predicate on the fields' numbers says that the word is some command's. -/
theorem legalWord_iff_exists_encode_eq (w : Word) : LegalWord w ↔ ∃ i, encode i = w :=
  ⟨exists_encode_eq_of_legalWord w, by rintro ⟨i, rfl⟩; exact legalWord_encode i⟩

/-! ## The count of the legal words -/

/-- Every byte, once. -/
def allBytes : List Byte := (List.finRange 256).map BitVec.ofFin

theorem mem_allBytes (b : Byte) : b ∈ allBytes := List.mem_map.2 ⟨b.toFin, List.mem_finRange _, rfl⟩

theorem allBytes_nodup : allBytes.Nodup := (List.nodup_finRange 256).map fun _ _ => congrArg BitVec.toFin

theorem allBytes_length : allBytes.length = 256 := by simp [allBytes]

/-- Every command with every operand, once. -/
def allInstrs : List Instr :=
  [.clear, .crcInit, .crcBuf, .append, .hdrlen, .validate, .decode] ++
    (allBytes.map Instr.push ++ allBytes.map Instr.crcByte)

theorem mem_allInstrs (i : Instr) : i ∈ allInstrs := by
  cases i <;> simp [allInstrs, mem_allBytes]

theorem allInstrs_nodup : allInstrs.Nodup := by
  have push : (allBytes.map Instr.push).Nodup := allBytes_nodup.map fun _ _ => Instr.push.inj
  have crcByte : (allBytes.map Instr.crcByte).Nodup := allBytes_nodup.map fun _ _ => Instr.crcByte.inj
  have classB : (allBytes.map Instr.push ++ allBytes.map Instr.crcByte).Nodup :=
    push.append crcByte (by simp [List.disjoint_left])
  exact List.Nodup.append (by decide) classB (by simp [List.disjoint_left])

theorem allInstrs_length : allInstrs.length = 519 := by
  simp [allInstrs, allBytes_length]

/-- Settles O2: the legal words are the commands' words, and there is one for each command. -/
theorem decoderAcceptsExactlyThe519LegalWords : Obligations.DecoderAcceptsExactlyThe519LegalWords := by
  refine ⟨fun w => ?_, fun w i => (decode_eq_ok_iff w i).1, allInstrs.map encode,
    allInstrs_nodup.map encode_injective, by rw [List.length_map, allInstrs_length], fun w => ?_⟩
  · simp only [legalWord_iff_exists_encode_eq, decode_eq_ok_iff]
  · simp only [legalWord_iff_exists_encode_eq, List.mem_map, mem_allInstrs, true_and]

/-! ## Writes to `CMD` (R70, R76) -/

/-- A word that is no command's is recorded as illegal, and nothing else changes (R76). -/
theorem perform_illegalWord (s : State) (w : Word) (legal : s.params.Ok) (illegal : ¬ LegalWord w) :
    perform (memWrite s.params 0x000 w) s = .next (s.fail .illegalCommand) := by
  rw [perform_cmdWrite s w legal]
  obtain ⟨i, decoded, -⟩ | ⟨r, -, recorded⟩ := issueCommand_cases w s
  · exact absurd ((legalWord_iff_exists_encode_eq w).2 ⟨i, (decode_eq_ok_iff w i).1 decoded⟩) illegal
  · exact recorded

/-- No word of R76's four cases passes R75's predicate. -/
theorem not_legalWord_of_illegal_case (w : Word)
    (illegal : w.toNat % 256 = 0x00 ∨ 0x0A ≤ w.toNat % 256 ∨ w.toNat / 2 ^ 16 ≠ 0 ∨
      (w.toNat % 256 ≠ 0x02 ∧ w.toNat % 256 ≠ 0x04 ∧ w.toNat / 2 ^ 8 % 2 ^ 8 ≠ 0)) : ¬ LegalWord w := by
  simp only [LegalWord, List.mem_cons, List.not_mem_nil, or_false]
  omega

/-- Settles O7. -/
theorem illegalWordOnlyRecordsItself : Obligations.IllegalWordOnlyRecordsItself :=
  ⟨rfl, fun s w legal illegal => perform_illegalWord s w legal (not_legalWord_of_illegal_case w illegal)⟩

/-- Settles O6. -/
theorem writeToCmdIssuesTheCommand : Obligations.WriteToCmdIssuesTheCommand := by
  refine fun s w legal => ⟨?_, exists_encode_eq_of_legalWord w, perform_illegalWord s w legal,
    fun off notCmd aligned inRange => ?_⟩
  · rintro i rfl
    exact perform_commandWrite s i legal
  · by_cases ctrl : off = 4
    · subst ctrl
      exact .inr ⟨rfl, perform_ctrlWrite s w legal⟩
    · exact .inl (perform_ignoredWrite s off w aligned inRange notCmd ctrl)

/-- Settles O4: the examples of R86. -/
theorem encodingExamples : Obligations.EncodingExamples :=
  ⟨decode_encode (.push 0x01), decode_encode (.push 0xFF), decode_encode (.crcByte 0x98), decode_encode .decode,
    rfl, rfl, rfl, rfl, rfl, rfl, rfl, rfl, fun _ => ⟨rfl, rfl, rfl⟩⟩

end Sys2Proof.Machine
end

section
/-! The lines that expand to several commands (30_encoding.md R82 to R85): what hex text and byte operands expand to,
what such a program does on the bus as a sequence of commands, and what a run of PUSHes leaves in the buffer. -/

namespace Sys2Proof.Machine

/-! ## Hex text (R84) -/

theorem hexDigit_of_mem (c : Char) (digit : c ∈ "0123456789abcdefABCDEF".toList) :
    ∃ d, hexDigit c = some d ∧ "0123456789abcdef".toList[d]? = some c.toLower := by
  revert c
  simp [hexDigit]

/-- A digit's value is its place among the 16 digits, in either case. -/
theorem hexDigit_eq_some (c : Char) (a : Nat) (digit : c ∈ "0123456789abcdefABCDEF".toList)
    (place : "0123456789abcdef".toList[a]? = some c.toLower) : hexDigit c = some a := by
  obtain ⟨d, value, place'⟩ := hexDigit_of_mem c digit
  obtain ⟨below, -⟩ := List.getElem?_eq_some_iff.1 place
  rwa [(List.getElem?_inj below (by decide)).1 (place.trans place'.symm)]

theorem hexBytes_cons_cons {h l : Char} {a b : Nat} (high : hexDigit h = some a) (low : hexDigit l = some b)
    (t : List Char) : hexBytes (h :: l :: t) = (hexBytes t).map (BitVec.ofNat 8 (16 * a + b) :: ·) := by
  cases rest : hexBytes t <;> simp [hexBytes, high, low, rest]

/-- Settles O58. -/
theorem loadHexReadsTwoDigitsAByte : Obligations.LoadHexReadsTwoDigitsAByte := by
  refine fun cap => ⟨rfl, fun t malformed => ?_, fun h l t a b as hDigit lDigit high low taken => ?_⟩
  · obtain ⟨-, -, -, -, -, rejected⟩ := assemblerTakesExactlyWellFormedLines cap
    exact (rejected t malformed).1
  · have digits := hexBytes_cons_cons (hexDigit_eq_some h a hDigit high) (hexDigit_eq_some l b lDigit low) t
    cases rest : hexBytes t with
    | none => simp [assembleLine, rest] at taken
    | some bs =>
      simp only [assembleLine, rest, Except.ok.injEq] at taken
      simp only [assembleLine, digits, rest, Option.map_some, ← taken]
      rfl

/-- Two characters a byte. -/
theorem length_of_hexBytes (t : List Char) (bs : List Byte) (read : hexBytes t = some bs) :
    bs.length = t.length / 2 := by
  induction t using List.twoStepInduction generalizing bs with
  | nil => cases read; rfl
  | singleton c => cases read
  | cons_cons h l t ih =>
    cases hh : hexDigit h <;> cases hl : hexDigit l <;> cases ht : hexBytes t <;>
      simp [hexBytes, hh, hl, ht] at read
    rw [← read, List.length_cons, ih _ ht, List.length_cons, List.length_cons]
    omega

/-! ## A line as a sequence of commands -/

theorem byteOperands_toNat (bs : List Byte) : byteOperands (bs.map fun b => b.toNat) = .ok bs := by
  induction bs with
  | nil => rfl
  | cons b bs ih => simp [byteOperands, byteOperand, ih, b.isLt]

theorem pushAccesses_eq (bs : List Byte) : pushAccesses bs = (bs.map Instr.push).map commandAccess := by
  rw [pushAccesses, List.map_map]
  rfl

/-- A PUSH of each byte, in order (R82). -/
theorem assembleLine_pushB (cap : Nat) (bs : List Byte) :
    assembleLine cap (.pushB (bs.map fun b => b.toNat)) = .ok ((bs.map Instr.push).map commandAccess) := by
  rw [assembleLine, byteOperands_toNat, Except.map, pushAccesses_eq]

/-- CLEAR, and a PUSH of each byte (R83). -/
theorem assembleLine_rxFrame (cap : Nat) (bs : List Byte) :
    assembleLine cap (.rxFrame (bs.map fun b => b.toNat)) =
      .ok ((.clear :: bs.map Instr.push).map commandAccess) := by
  rw [assembleLine, byteOperands_toNat, Except.map, pushAccesses_eq, List.map_cons]

/-- CLEAR, a PUSH of each byte of the text, and APPEND (R85). -/
theorem assembleLine_build (cap : Nat) (t : List Char) (bs : List Byte) (read : hexBytes t = some bs) :
    assembleLine cap (.build t) = .ok ((Instr.clear :: bs.map Instr.push ++ [Instr.append]).map commandAccess) := by
  simp [assembleLine, read, pushAccesses_eq]

/-- The program of one line is the line's commands, each written to `CMD`. -/
theorem programEvents_commands (p : Params) (l : Line) (is : List Instr)
    (taken : assembleLine p.bufCap l = .ok (is.map commandAccess)) :
    programEvents p [l] = .ok (is.map (commandWrite p)) := by
  simp only [programEvents, assemble, taken, Except.map, List.append_nil, List.map_map]
  rfl

/-- Commands written to `CMD` one after another are performed one after another (R60, R70). -/
theorem performAll_commandWrites (is : List Instr) (s : State) (legal : s.params.Ok) :
    performAll (is.map (commandWrite s.params)) s = execAll is s := by
  induction is generalizing s with
  | nil => rfl
  | cons i is ih =>
    obtain ⟨t, ran, effect⟩ := exec_effect i s
    obtain ⟨params, -⟩ := effect.frame
    rw [List.map_cons, performAll, perform_commandWrite s i legal, ran, execAll, ran]
    rw [← params]
    exact ih t (by rwa [params])

theorem execAll_append {is js : List Instr} {s t : State} (ran : execAll is s = .next t) :
    execAll (is ++ js) s = execAll js t := by
  induction is generalizing s with
  | nil => cases ran; rfl
  | cons i is ih =>
    obtain ⟨u, first, -⟩ := exec_effect i s
    rw [execAll, first] at ran
    rw [List.cons_append, execAll, first]
    exact ih ran

theorem execAll_singleton (i : Instr) (s : State) : execAll [i] s = exec i s := by
  obtain ⟨t, ran, -⟩ := exec_effect i s
  simp only [execAll, ran]

/-- No sequence of commands but the empty one depends on the code recorded before it (00_scope.md R11). -/
theorem execAll_startCommand {is : List Instr} (nonempty : is ≠ []) (s : State) :
    execAll is s.startCommand = execAll is s := by
  cases is with
  | nil => exact absurd rfl nonempty
  | cons i is => rw [execAll, execAll, State.startCommand_eq, exec_setErr]

/-! ## What PUSH, a run of PUSHes, and APPEND leave (40_frame_buffer.md R102, 41_crc_generator.md R116) -/

theorem exec_push_of_room (s : State) (b : Byte) (room : s.len < s.params.bufCap) :
    exec (.push b) s = .next (s.startCommand.appendBytes [b]) := by
  rw [exec, execPush, if_neg (Nat.ne_of_lt room)]

theorem exec_push_of_full (s : State) (b : Byte) (full : s.len = s.params.bufCap) :
    exec (.push b) s = .next (s.startCommand.fail .bufferOverflow) := by
  rw [exec, execPush, if_pos full]

theorem exec_append_of_room (s : State) (room : s.len + 2 ≤ s.params.bufCap) :
    exec .append s =
      .next ((s.startCommand.appendBytes (checksumBytes s.buf)).setCrc (checksum s.buf)) := by
  rw [exec, execAppend, if_neg (Nat.not_lt.2 room), State.len_eq, slice_all]

theorem exec_append_of_full (s : State) (full : s.params.bufCap < s.len + 2) :
    exec .append s = .next (s.startCommand.fail .bufferOverflow) := by
  rw [exec, execAppend, if_pos full]

@[simp] theorem State.appendBytes_nil (s : State) : s.appendBytes [] = s := by
  simp [State.appendBytes]

theorem State.appendBytes_appendBytes (s : State) (bs cs : List Byte) :
    (s.appendBytes bs).appendBytes cs = s.appendBytes (bs ++ cs) := by
  simp [State.appendBytes]

theorem State.len_appendBytes (s : State) (bs : List Byte) : (s.appendBytes bs).len = s.len + bs.length := by
  simp [State.len_eq]

/-- PUSHes of bytes that fit append them, and change nothing else. -/
theorem execAll_push_of_fits (bs : List Byte) (s : State) (fits : s.len + bs.length ≤ s.params.bufCap) :
    execAll (bs.map Instr.push) s.startCommand = .next (s.startCommand.appendBytes bs) := by
  induction bs generalizing s with
  | nil => rw [State.appendBytes_nil]; rfl
  | cons b bs ih =>
    rw [List.length_cons] at fits
    have room : s.startCommand.len < s.startCommand.params.bufCap := by
      show s.len < s.params.bufCap
      omega
    have rest := ih (s.appendBytes [b]) (by
      rw [State.len_appendBytes, State.appendBytes_params, List.length_singleton]
      omega)
    simp only [List.map_cons, execAll, exec_push_of_room s.startCommand b room]
    exact rest.trans (congrArg _ (s.startCommand.appendBytes_appendBytes [b] bs))

/-- PUSHes fill the buffer with as many of the bytes as fit. -/
theorem execAll_push_buf (bs : List Byte) (s : State) (fits : s.len ≤ s.params.bufCap) :
    Completes (execAll (bs.map Instr.push) s) fun t =>
      t.params = s.params ∧ t.buf = s.buf ++ bs.take (s.params.bufCap - s.len) := by
  induction bs generalizing s with
  | nil => exact ⟨s, rfl, rfl, by simp⟩
  | cons b bs ih =>
    simp only [List.map_cons, execAll]
    obtain room | full := Nat.lt_or_eq_of_le fits
    · rw [exec_push_of_room s b room]
      obtain ⟨t, ran, params, buf⟩ := ih (s.startCommand.appendBytes [b]) (by
        simp only [State.len_appendBytes]
        exact room)
      refine ⟨t, ran, params, ?_⟩
      have left : s.params.bufCap - s.len = s.params.bufCap - (s.len + 1) + 1 := by omega
      rw [buf, left, List.take_succ_cons, State.len_appendBytes]
      simp [State.len_eq]
    · rw [exec_push_of_full s b full]
      obtain ⟨t, ran, params, buf⟩ := ih (s.startCommand.fail .bufferOverflow) fits
      refine ⟨t, ran, params, ?_⟩
      have left : s.params.bufCap - s.len = 0 := by omega
      exact buf.trans (by simp [State.len_eq, ← full])

/-! ## PUSHB, RXFRAME and BUILD on the bus -/

/-- Settles O59. -/
theorem pushBytesAndReceiveFrameLines : Obligations.PushBytesAndReceiveFrameLines := by
  refine ⟨fun cap bs => ⟨?_, ?_⟩, fun s bs legal => ⟨fun fits => ?_, fun nonempty fits => ?_, [], rfl, rfl⟩⟩
  · rw [assembleLine_pushB, List.map_map]
    rfl
  · rw [assembleLine_rxFrame, List.map_cons, List.map_map]
    rfl
  · refine ⟨_, programEvents_commands s.params _ _ (assembleLine_rxFrame _ bs), ?_⟩
    have pushed := execAll_push_of_fits bs (s.emptyBuffer.setCrc crcInitial).clearResults
      (by simpa [State.len_eq] using fits)
    rw [performAll_commandWrites _ s legal]
    exact pushed
  · refine ⟨_, programEvents_commands s.params _ _ (assembleLine_pushB _ bs), ?_⟩
    rw [performAll_commandWrites _ s legal, ← execAll_startCommand (by simpa using nonempty)]
    exact execAll_push_of_fits bs s fits

/-- The program of BUILD comes to APPEND with as many of the bytes in the buffer as fit. -/
theorem performAll_build (bs : List Byte) (s : State) (legal : s.params.Ok) :
    ∃ t, t.params = s.params ∧ t.buf = bs.take s.params.bufCap ∧
      performAll ((Instr.clear :: bs.map Instr.push ++ [Instr.append]).map (commandWrite s.params)) s =
        exec .append t := by
  obtain ⟨t, ran, params, buf⟩ :=
    execAll_push_buf bs (s.startCommand.emptyBuffer.setCrc crcInitial).clearResults (Nat.zero_le _)
  have pushed : execAll (.clear :: bs.map Instr.push) s = .next t := ran
  refine ⟨t, params, by simpa [State.len_eq] using buf, ?_⟩
  rw [performAll_commandWrites _ s legal, execAll_append pushed, execAll_singleton]

/-- Settles O60: whether APPEND finds room is whether the bytes and their checksum fit. -/
theorem buildLineBuildsTheFrame : Obligations.BuildLineBuildsTheFrame := by
  intro s text legal wellFormed
  obtain ⟨bs, read⟩ := Option.isSome_iff_exists.1 ((isSome_hexBytes text).trans wellFormed)
  have length := length_of_hexBytes text bs read
  have assembled := assembleLine_build s.params.bufCap text bs read
  obtain ⟨t, params, buf, performed⟩ := performAll_build bs s legal
  rw [← length]
  refine ⟨bs, _, read, rfl, ?_, programEvents_commands s.params _ _ assembled, fun fits => ?_, fun full => ?_⟩
  · rw [assembled, List.map_append, List.map_cons, List.map_map]
    rfl
  · have whole : t.buf = bs := by rw [buf, List.take_of_length_le (by omega)]
    rw [performed, exec_append_of_room t (by rwa [t.len_eq, whole, params])]
    exact ⟨_, rfl, by simp [State.len_eq, whole, checksumBytes]⟩
  · have stored : t.len = min s.params.bufCap bs.length := by rw [t.len_eq, buf, List.length_take]
    rw [performed, exec_append_of_full t (by rw [stored, params]; omega)]
    refine ⟨_, rfl, rfl, ?_⟩
    show t.len < bs.length + 2
    omega

end Sys2Proof.Machine
end

section
/-! The frame buffer commands (40_frame_buffer.md) and the two sequences that use them: the frame builder (R117), and
the receive sequence of a response, whose header says how many bytes are still to come (42_frame_validator.md R136). -/

namespace Sys2Proof.Machine

/-! ## PUSH, and CLEAR beside reset -/

/-- Settles O22. -/
theorem pushAppendsOneByteOrOverflows : Obligations.PushAppendsOneByteOrOverflows := by
  refine ⟨rfl, fun b => ⟨rfl, fun s => ⟨fun notFull => ?_, fun full => exec_push_of_full s b full⟩⟩⟩
  rw [exec, execPush, if_neg notFull]
  rfl

/-- Settles O20. -/
theorem resetAndClearDifferInStrictOnly : Obligations.ResetAndClearDifferInStrictOnly := by
  intro s
  obtain ⟨-, clear⟩ := clearStartsAFreshFrame
  obtain ⟨-, cleared⟩ := clear s
  exact ⟨s.resetBlock, _, rfl, cleared, rfl, rfl, rfl⟩

/-! ## A fresh frame -/

/-- The state after CLEAR with the bytes `bs` pushed (R101, R102). -/
def State.freshFrame (s : State) (bs : List Byte) : State :=
  (s.startCommand.emptyBuffer.setCrc crcInitial).clearResults.appendBytes bs

section
variable (s : State) (bs : List Byte)

@[simp] theorem State.freshFrame_buf : (s.freshFrame bs).buf = bs := rfl
@[simp] theorem State.freshFrame_params : (s.freshFrame bs).params = s.params := rfl
@[simp] theorem State.freshFrame_len : (s.freshFrame bs).len = bs.length := rfl

end

/-- CLEAR and PUSHes of bytes that fit leave a fresh frame of exactly those bytes, whatever was there before. -/
theorem execAll_clear_push (s : State) (bs : List Byte) (fits : bs.length ≤ s.params.bufCap) :
    execAll (.clear :: bs.map Instr.push) s = .next (s.freshFrame bs) :=
  execAll_push_of_fits bs (s.emptyBuffer.setCrc crcInitial).clearResults (by simpa [State.len_eq] using fits)

/-- Settles O31: APPEND on the fresh frame of the body. -/
theorem frameBuilder : Obligations.FrameBuilder := by
  intro s m fits
  have body := execAll_clear_push s m (by omega)
  rw [execAll_append body, execAll_singleton, exec_append_of_room _ (by simpa using fits)]
  exact ⟨_, rfl, rfl, by simp [State.len_eq, checksumBytes], rfl, rfl⟩

/-! ## A well-formed response (42_frame_validator.md R130) -/

/-- The bytes of a response that its checksum covers: address, function, byte count and payload. -/
def responseBody (address function : Byte) (payload : List Byte) : List Byte :=
  address :: function :: BitVec.ofNat 8 payload.length :: payload

/-- A well-formed response: its body, and the body's checksum, low byte first (R51). -/
def responseFrame (address function : Byte) (payload : List Byte) : List Byte :=
  responseBody address function payload ++ checksumBytes (responseBody address function payload)

section
variable (address function : Byte) (payload : List Byte)

@[simp] theorem responseFrame_length : (responseFrame address function payload).length = payload.length + 5 := by
  simp [responseFrame, responseBody, checksumBytes]

/-- The first three bytes already hold the byte count, whatever bytes follow. -/
theorem byteCount_header_toNat (rest : List Byte) (countable : payload.length ≤ 255) :
    (byteCount (address :: function :: BitVec.ofNat 8 payload.length :: rest)).toNat = payload.length := by
  show (BitVec.ofNat 8 payload.length).toNat = payload.length
  rw [BitVec.toNat_ofNat]
  omega

end

section
variable {s : State} {address function : Byte} {payload : List Byte}

theorem byteCount_of_response (holds : s.buf = responseFrame address function payload)
    (countable : payload.length ≤ 255) : (byteCount s.buf).toNat = payload.length := by
  rw [holds]
  exact byteCount_header_toNat address function payload _ countable

theorem frameComplete_of_response (holds : s.buf = responseFrame address function payload)
    (countable : payload.length ≤ 255) : s.FrameComplete := by
  have length : s.len = payload.length + 5 := by rw [s.len_eq, holds, responseFrame_length]
  have count := byteCount_of_response holds countable
  constructor <;> omega

/-- The last two bytes of a response are the checksum of the others, so the verdict on it is a match. -/
theorem verdict_of_response (holds : s.buf = responseFrame address function payload)
    (countable : payload.length ≤ 255) : s.checkedFrame.verdict = .matched := by
  have body : s.buf.length - 2 = (responseBody address function payload).length := by
    rw [holds, responseFrame_length]
    rfl
  rw [s.checkedFrame_verdict_iff (frameComplete_of_response holds countable), body, holds, responseFrame,
    List.drop_left, List.take_left]
  rfl

/-- What DECODE takes for the payload of a response is its payload. -/
theorem payload_of_response (holds : s.buf = responseFrame address function payload)
    (countable : payload.length ≤ 255) : s.checkedFrame.payload = payload := by
  rw [State.payload_eq, State.checkedFrame_buf, State.checkedFrame_bcnt, byteCount_of_response holds countable, holds]
  exact List.take_left

/-! ## The receive sequence (42_frame_validator.md R136, 43_decoder.md R155) -/

theorem exec_hdrlen_of_header (header : 3 ≤ s.len) :
    exec .hdrlen s = .next s.startCommand.clearResults.extractHeader := by
  rw [exec, execHdrlen, if_neg (Nat.not_lt.2 header)]

theorem exec_decode_of_matched (whole : s.FrameComplete) (verdict : s.checkedFrame.verdict = .matched) :
    exec .decode s = .next s.checkedFrame.decodePayload := by
  obtain ⟨t, ran, effect⟩ := exec_effect .decode s
  obtain ⟨five, count⟩ := whole
  cases effect with
  | tooShort _ _ short => omega
  | incomplete _ _ short => omega
  | decodeMatch => exact ran
  | decodeStrict _ other | decodeLenient _ other => cases verdict.symm.trans other

/-- DECODE accepts a well-formed response and returns its payload's value, under either policy. -/
theorem exec_decode_of_response (holds : s.buf = responseFrame address function payload)
    (countable : payload.length ≤ 255) :
    Completes (exec .decode s) fun u => u.buf = s.buf ∧ u.verdict = .matched ∧ u.err = .none ∧
      u.decodedValue = referenceValue payload.length payload := by
  have whole := frameComplete_of_response holds countable
  have verdict := verdict_of_response holds countable
  have value := s.decodedValue_checkedFrame whole .none
  rw [payload_of_response holds countable, State.checkedFrame_bcnt, byteCount_of_response holds countable] at value
  exact ⟨_, exec_decode_of_matched whole verdict, by simp, by rw [State.decodePayload_verdict, verdict], by simp,
    value⟩

end

/-- The state after HDRLEN on a fresh frame of the bytes `header` (R131). -/
def State.awaitRest (s : State) (header : List Byte) : State :=
  (s.freshFrame header).startCommand.clearResults.extractHeader

section
variable (s : State) (header rest : List Byte)

@[simp] theorem State.awaitRest_params : (s.awaitRest header).params = s.params := rfl
@[simp] theorem State.awaitRest_buf : (s.awaitRest header).buf = header := rfl
@[simp] theorem State.awaitRest_explen : (s.awaitRest header).explen = expectedLen (byteCount header) := rfl

/-- CLEAR, a PUSH of each byte received so far, and HDRLEN. -/
theorem execAll_receive_header (three : 3 ≤ header.length) (fits : header.length ≤ s.params.bufCap) :
    execAll (.clear :: header.map Instr.push ++ [.hdrlen]) s = .next (s.awaitRest header) := by
  rw [execAll_append (execAll_clear_push s header fits), execAll_singleton,
    exec_hdrlen_of_header (by simpa using three)]
  rfl

/-- A PUSH of each byte received after HDRLEN. -/
theorem execAll_receive_rest (fits : header.length + rest.length ≤ s.params.bufCap) :
    execAll (rest.map Instr.push) (s.awaitRest header) = .next ((s.awaitRest header).appendBytes rest) :=
  execAll_push_of_fits rest (s.awaitRest header) (by simpa [State.len_eq] using fits)

end

/-- Settles O49: HDRLEN reads the byte count off the first three bytes, the others complete the response, and DECODE
accepts it. -/
theorem receiveSequenceDecodesAnyWellFormedResponse :
    Obligations.ReceiveSequenceDecodesAnyWellFormedResponse := by
  intro s address function payload m r countable fits body frame
  have response : r = responseFrame address function payload := by
    rw [frame, body]
    rfl
  have length : r.length = payload.length + 5 := by rw [response, responseFrame_length]
  have received := execAll_receive_header s (r.take 3) (by simp; omega) (by simp; omega)
  have explen : (s.awaitRest (r.take 3)).explen.toNat = r.length := by
    rw [State.awaitRest_explen, expectedLen_toNat, length, response]
    exact congrArg (· + 5) (byteCount_header_toNat address function payload [] countable)
  have completed := execAll_receive_rest s (r.take 3) (r.drop 3)
    (by rw [← List.length_append, List.take_append_drop]; omega)
  have whole : ((s.awaitRest (r.take 3)).appendBytes (r.drop 3)).buf = r := List.take_append_drop 3 r
  obtain ⟨u, decoded, buf, results⟩ := exec_decode_of_response (whole.trans response) countable
  refine ⟨_, u, received, explen, ?_, buf.trans whole, results⟩
  rwa [execAll_append completed, execAll_singleton]

end Sys2Proof.Machine
end

section
/-! The CRC's algebra (41_crc_generator.md R110, R111): the shift loop as an iterated turn, turns and steps that lose
nothing, and the reading of the loop in the other bit order. The residue law (R118) and the detection of a changed
byte (R119) follow. -/

namespace Sys2Proof.Machine

/-! ## The shift loop -/

theorem crcShift_eq_of_odd {c : Half} (odd : c.getLsbD 0 = true) : crcShift c = (c >>> 1) ^^^ crcPolynomial :=
  if_pos odd

theorem crcShift_eq_of_even {c : Half} (even : c.getLsbD 0 = false) : crcShift c = c >>> 1 :=
  if_neg (Bool.eq_false_iff.1 even)

theorem crcShifts_eq_iterate (n : Nat) (c : Half) : crcShifts n c = crcShift^[n] c := by
  induction n generalizing c with
  | zero => rfl
  | succ n ih => exact ih (crcShift c)

/-- R110's loop with the test of the low bit as a remainder. -/
theorem crcShift_eq_mod_two :
    crcShift = fun c : Half => if c.toNat % 2 = 1 then (c >>> 1) ^^^ 0xA001#16 else c >>> 1 := by
  funext c
  simp only [crcShift, crcPolynomial, BitVec.getLsbD, Nat.testBit_zero, decide_eq_true_eq]

/-! ## `checksum` is a left fold -/

theorem checksum_nil : checksum [] = 0xFFFF#16 := rfl

theorem checksum_append (s t : List Byte) : checksum (s ++ t) = t.foldl crcStep (checksum s) :=
  List.foldl_append

theorem checksum_concat (s : List Byte) (b : Byte) : checksum (s ++ [b]) = crcStep (checksum s) b :=
  checksum_append s [b]

theorem lo_toNat (c : Half) : (lo c).toNat = c.toNat % 256 := by
  rw [lo, BitVec.extractLsb'_toNat, Nat.shiftRight_zero]

theorem hi_toNat (c : Half) : (hi c).toNat = c.toNat / 256 := by
  have := c.isLt
  rw [hi, BitVec.extractLsb'_toNat, Nat.shiftRight_eq_div_pow]
  omega

/-- Settles O24. -/
theorem checksumFollowsTheShiftLoop : Obligations.ChecksumFollowsTheShiftLoop := by
  refine ⟨fun c b => ?_, checksum_nil, checksum_concat, fun c => ⟨lo_toNat c, hi_toNat c⟩⟩
  rw [crcStep, crcShifts_eq_iterate, crcShift_eq_mod_two]

/-! ## No turn and no step loses information -/

/-- The polynomial's high bit is 1, so the bit a turn shifts out comes back at the top. -/
theorem msb_crcShift (c : Half) : (crcShift c).msb = c.getLsbD 0 := by
  cases parity : c.getLsbD 0 with
  | true => rw [crcShift_eq_of_odd parity, BitVec.msb_xor, BitVec.msb_ushiftRight]; rfl
  | false => rw [crcShift_eq_of_even parity, BitVec.msb_ushiftRight]; rfl

/-- A halfword is its low bit and the others. -/
theorem eq_of_lsb_eq_of_ushiftRight_eq {a b : Half} (lsb : a.getLsbD 0 = b.getLsbD 0) (rest : a >>> 1 = b >>> 1) :
    a = b := by
  apply BitVec.eq_of_getLsbD_eq
  intro i _
  cases i with
  | zero => exact lsb
  | succ i => simpa [Nat.add_comm] using congrArg (BitVec.getLsbD · i) rest

theorem crcShift_injective : Function.Injective crcShift := by
  intro a b same
  have lsb : a.getLsbD 0 = b.getLsbD 0 := by rw [← msb_crcShift, same, msb_crcShift]
  refine eq_of_lsb_eq_of_ushiftRight_eq lsb ?_
  cases parity : b.getLsbD 0 with
  | true =>
    rw [crcShift_eq_of_odd (lsb.trans parity), crcShift_eq_of_odd parity] at same
    exact (BitVec.xor_left_inj _).1 same
  | false => rwa [crcShift_eq_of_even (lsb.trans parity), crcShift_eq_of_even parity] at same

theorem crcShifts_injective (n : Nat) : Function.Injective (crcShifts n) := by
  rw [funext (crcShifts_eq_iterate n)]
  exact crcShift_injective.iterate n

/-- A step is one-to-one in the accumulator. -/
theorem crcStep_left_injective (b : Byte) : Function.Injective (crcStep · b) := fun _ _ same =>
  (BitVec.xor_left_inj _).1 (crcShifts_injective 8 same)

/-- A step is one-to-one in the byte. -/
theorem crcStep_right_injective (c : Half) : Function.Injective (crcStep c) := fun a b same => by
  have wide : a.setWidth 16 = b.setWidth 16 := (BitVec.xor_right_inj _).1 (crcShifts_injective 8 same)
  simpa using congrArg (BitVec.setWidth 8) wide

/-- Whatever bytes follow, two accumulators that differ stay different. -/
theorem foldl_crcStep_injective (s : List Byte) : Function.Injective fun c => s.foldl crcStep c := by
  induction s with
  | nil => exact fun _ _ same => same
  | cons b s ih => exact fun _ _ same => crcStep_left_injective b (ih same)

/-- A changed byte changes the checksum, whatever the byte, its place and the change. -/
theorem checksum_set_eq_iff (s : List Byte) (i : Nat) (below : i < s.length) (b : Byte) :
    checksum (s.set i b) = checksum s ↔ b = s[i] := by
  constructor
  · intro same
    rw [List.set_eq_take_append_cons_drop, if_pos below, checksum_append] at same
    have split : s = s.take i ++ s[i] :: s.drop (i + 1) := by simp
    conv at same => rhs; rw [split, checksum_append]
    exact crcStep_right_injective _ (foldl_crcStep_injective _ same)
  · rintro rfl
    rw [List.set_getElem_self]

theorem bitMask_ne_zero : ∀ k : Fin 8, 1#8 <<< k.val ≠ 0#8 := by decide

/-- Settles O33: a flipped bit is a changed byte. -/
theorem everyBitFlipChangesTheChecksum : Obligations.EveryBitFlipChangesTheChecksum := by
  intro s i below k same
  have unchanged : s[i] ^^^ (1#8 <<< k.val) = s[i] := (checksum_set_eq_iff s i below _).1 same
  exact bitMask_ne_zero k ((BitVec.xor_right_inj s[i]).1 (unchanged.trans BitVec.xor_zero.symm))

/-! ## The residue law (R118) -/

/-- While the bits shifted out are 0 the polynomial does not enter. -/
theorem crcShifts_eq_ushiftRight (n : Nat) (c : Half) (zeros : ∀ i < n, c.getLsbD i = false) :
    crcShifts n c = c >>> n := by
  induction n generalizing c with
  | zero => simp [crcShifts]
  | succ n ih =>
    have rest : ∀ i < n, (c >>> 1).getLsbD i = false := fun i below => by
      rw [BitVec.getLsbD_ushiftRight]
      exact zeros (1 + i) (by omega)
    calc crcShifts (n + 1) c = crcShifts n (c >>> 1) := by rw [crcShifts, crcShift_eq_of_even (zeros 0 n.succ_pos)]
      _ = c >>> 1 >>> n := ih (c >>> 1) rest
      _ = c >>> (n + 1) := by rw [← BitVec.shiftRight_add, Nat.add_comm]

/-- A step with the accumulator's own low byte moves its high byte down. -/
theorem crcStep_lo (c : Half) : crcStep c (lo c) = (hi c).setWidth 16 := by
  rw [crcStep, crcShifts_eq_ushiftRight]
  · apply BitVec.eq_of_getLsbD_eq
    intro i inside
    by_cases low : i < 8
    · simp [lo, hi, low, inside]
    · simpa [lo, hi, low] using c.getLsbD_of_ge (8 + i) (by omega)
  · intro i low
    have inside : i < 16 := by omega
    simp [lo, low, inside]

/-- A step with the accumulator itself, where it fits a byte, leaves 0. -/
theorem crcStep_setWidth_self (b : Byte) : crcStep (b.setWidth 16) b = 0 := by
  rw [crcStep, BitVec.xor_self]
  rfl

theorem foldl_crcStep_lo_hi (c : Half) : [lo c, hi c].foldl crcStep c = 0 := by
  rw [List.foldl_cons, List.foldl_cons, List.foldl_nil, crcStep_lo, crcStep_setWidth_self]

/-- Settles O32: the first of the two bytes leaves the high byte, and the second takes it away. -/
theorem residueLaw : Obligations.ResidueLaw := fun s =>
  (checksum_append s _).trans (foldl_crcStep_lo_hi (checksum s))

/-! ## The loop in the other bit order (R110) -/

section
variable {w : Nat}

theorem reverse_xor (x y : BitVec w) : (x ^^^ y).reverse = x.reverse ^^^ y.reverse := by
  ext i
  simp [BitVec.getElem_reverse]

theorem reverse_ushiftRight (x : BitVec w) (n : Nat) : (x >>> n).reverse = x.reverse <<< n := by
  ext i below
  rw [BitVec.getElem_reverse, BitVec.getMsbD_ushiftRight, BitVec.getElem_shiftLeft]
  by_cases low : i < n
  · simp [low]
  · simp [low, below, BitVec.getElem_reverse]

theorem reverse_setWidth (x : BitVec w) {v : Nat} (wider : w ≤ v) :
    (x.setWidth v).reverse = x.reverse.setWidth v <<< (v - w) := by
  ext i below
  rw [BitVec.getElem_reverse, BitVec.getMsbD_setWidth, BitVec.getElem_shiftLeft]
  by_cases low : i < v - w
  · have above : ¬ v ≤ i + w := by omega
    simp [low, above]
  · have inside : v ≤ i + w := by omega
    have place : i - (v - w) = i + w - v := by omega
    simp [low, inside, place, BitVec.getLsbD_reverse]

end

/-- One turn of the most-significant-bit-first loop with the polynomial 0x8005. -/
def msbFirstShift (c : Half) : Half := if c.msb then (c <<< 1) ^^^ 0x8005#16 else c <<< 1

theorem reverse_crcPolynomial : crcPolynomial.reverse = 0x8005#16 := by decide

/-- A turn of R110's loop, read in the other order. -/
theorem reverse_crcShift (c : Half) : (crcShift c).reverse = msbFirstShift c.reverse := by
  rw [msbFirstShift, BitVec.msb_reverse]
  cases parity : c.getLsbD 0 with
  | true =>
    rw [crcShift_eq_of_odd parity, reverse_xor, reverse_ushiftRight, reverse_crcPolynomial]
    rfl
  | false =>
    rw [crcShift_eq_of_even parity, reverse_ushiftRight]
    rfl

/-- Settles O25: the two loops agree turn by turn, from the XOR of the byte on. -/
theorem crcStepIsTheReflectedMsbFirstStep : Obligations.CrcStepIsTheReflectedMsbFirstStep := by
  refine ⟨reverse_crcPolynomial, fun c b => ?_⟩
  have turns : Function.Semiconj BitVec.reverse crcShift msbFirstShift := reverse_crcShift
  calc (crcStep c b).reverse = (crcShift^[8] (c ^^^ b.setWidth 16)).reverse := by rw [crcStep, crcShifts_eq_iterate]
    _ = msbFirstShift^[8] (c ^^^ b.setWidth 16).reverse := turns.iterate_right 8 _
    _ = msbFirstShift^[8] (c.reverse ^^^ (b.reverse.setWidth 16 <<< 8)) := by
      rw [reverse_xor, reverse_setWidth b (by omega)]

/-! ## Reference values (R112) -/

/-- The checksum of a read request, the example of R115 and R116. -/
theorem checksum_readRequest : checksum [0x01, 0x03, 0x00, 0x00, 0x00, 0x01] = 0x0A84#16 := by decide +kernel

/-- Settles O26: seven closed sequences and one closed trace, evaluated. -/
theorem checksumReferenceValues : Obligations.ChecksumReferenceValues := by
  refine ⟨?_, rfl, rfl⟩
  decide +kernel

end Sys2Proof.Machine
end

section
/-! The CRC generator's commands (41_crc_generator.md R113 to R116): the state each leaves, CRC.BYTE over a list of
bytes, and APPEND after APPEND. -/

namespace Sys2Proof.Machine

/-! ## The state each command leaves -/

theorem exec_crcInit (s : State) : exec .crcInit s = .next (s.startCommand.setCrc crcInitial) := rfl

theorem exec_crcByte (b : Byte) (s : State) :
    exec (.crcByte b) s = .next (s.startCommand.setCrc (crcStep s.crc b)) := rfl

theorem exec_crcBuf (s : State) : exec .crcBuf s = .next (s.startCommand.setCrc (checksum s.buf)) := by
  rw [exec, execCrcBuf, State.len_eq, slice_all]

/-- Settles O27. -/
theorem crcInitResetsTheAccumulator : Obligations.CrcInitResetsTheAccumulator := ⟨rfl, exec_crcInit⟩

theorem exec_crcBuf_of_checksum {s : State} {c : Half} (sum : checksum s.buf = c) :
    exec .crcBuf s = .next (s.startCommand.setCrc c) := sum ▸ exec_crcBuf s

/-- Settles O29: the residue law gives the buffer that ends in its own checksum. -/
theorem crcBufChecksumsTheBuffer : Obligations.CrcBufChecksumsTheBuffer := by
  refine ⟨rfl, exec_crcBuf, fun s empty => ?_, fun s m closed => ?_, fun s request => ?_⟩
  · exact exec_crcBuf_of_checksum (empty ▸ checksum_nil)
  · exact exec_crcBuf_of_checksum (closed ▸ residueLaw m)
  · exact exec_crcBuf_of_checksum (request ▸ checksum_readRequest)

/-! ## CRC.BYTE over a list of bytes -/

/-- CRC.BYTE of each byte folds the step over the bytes, from whatever the accumulator holds. -/
theorem execAll_crcByte (bs : List Byte) (s : State) :
    execAll (bs.map Instr.crcByte) s.startCommand = .next (s.startCommand.setCrc (bs.foldl crcStep s.crc)) := by
  induction bs generalizing s with
  | nil => rfl
  | cons b bs ih => exact ih (s.setCrc (crcStep s.crc b))

/-- CRC.BUF, CLEAR and an APPEND that fits take nothing from the accumulator. -/
theorem exec_setCrc_of_overwritten {i : Instr} (s : State) (x : Half)
    (overwritten : i = .crcBuf ∨ i = .clear ∨ (i = .append ∧ s.len + 2 ≤ s.params.bufCap)) :
    exec i (s.setCrc x) = exec i s := by
  obtain rfl | rfl | ⟨rfl, room⟩ := overwritten
  · rw [exec_crcBuf, exec_crcBuf]
    rfl
  · rfl
  · rw [exec_append_of_room s room, exec_append_of_room (s.setCrc x) room]
    rfl

/-- Settles O28: the accumulator runs on from CRC.INIT as `checksum` folds. -/
theorem crcByteStreamsTheChecksum : Obligations.CrcByteStreamsTheChecksum := by
  refine ⟨fun b => ⟨rfl, exec_crcByte b⟩, fun bs s => execAll_crcByte bs (s.setCrc crcInitial), fun s x => ?_,
    rfl, rfl, rfl, rfl, rfl, rfl⟩
  exact ⟨exec_setCrc_of_overwritten s x (.inl rfl), exec_setCrc_of_overwritten s x (.inr (.inl rfl)),
    fun room => exec_setCrc_of_overwritten s x (.inr (.inr ⟨rfl, room⟩))⟩

/-! ## APPEND -/

/-- The state after an APPEND that fits (R116). -/
def State.sealed (s : State) : State :=
  (s.startCommand.appendBytes (checksumBytes s.buf)).setCrc (checksum s.buf)

theorem State.sealed_len (s : State) : s.sealed.len = s.len + 2 := s.startCommand.len_appendBytes (checksumBytes s.buf)

/-- R118 on the buffer: after an APPEND that fits, the checksum of the buffer is 0. -/
theorem State.checksum_sealed_buf (s : State) : checksum s.sealed.buf = 0 := residueLaw s.buf

/-- A second APPEND appends two 0 bytes. -/
theorem State.sealed_sealed (s : State) :
    s.sealed.sealed = (s.startCommand.appendBytes (checksumBytes s.buf ++ [0x00, 0x00])).setCrc 0 := by
  have zeros : checksumBytes s.sealed.buf = [0x00, 0x00] := by
    rw [checksumBytes, s.checksum_sealed_buf]
    rfl
  rw [State.sealed, zeros, s.checksum_sealed_buf, ← State.appendBytes_appendBytes]
  rfl

theorem execAll_append_append (s : State) (room : s.len + 4 ≤ s.params.bufCap) :
    execAll [.append, .append] s = .next s.sealed.sealed := by
  have first : execAll [.append] s = .next s.sealed :=
    (execAll_singleton .append s).trans (exec_append_of_room s (by omega))
  have second : s.sealed.len + 2 ≤ s.sealed.params.bufCap := s.sealed_len ▸ room
  exact (execAll_append first).trans ((execAll_singleton .append s.sealed).trans (exec_append_of_room _ second))

/-- An APPEND that fits, by the bytes the buffer holds. -/
theorem exec_append_of_buf {s : State} {m : List Byte} (holds : s.buf = m) (room : m.length + 2 ≤ s.params.bufCap) :
    exec .append s = .next { s with err := .none, buf := m ++ checksumBytes m, crc := checksum m } := by
  subst holds
  exact exec_append_of_room s room

/-- R5's smallest capacity has room for the checksum of any six bytes. -/
theorem add_two_le_bufCap_of_le_six {p : Params} (legal : p.Ok) {n : Nat} (short : n ≤ 6) : n + 2 ≤ p.bufCap := by
  obtain ⟨cap, -, -⟩ := legal
  omega

/-- Settles O30: both outcomes of APPEND, two buffers it meets, and the residue law for the second APPEND. -/
theorem appendAddsTheChecksumLowByteFirst : Obligations.AppendAddsTheChecksumLowByteFirst := by
  refine ⟨rfl, exec_append_of_room, exec_append_of_full, fun s legal empty => ?_, fun s room => ?_,
    fun s legal request => ?_⟩
  · exact exec_append_of_buf empty (add_two_le_bufCap_of_le_six legal (by decide))
  · rw [execAll_append_append s room, s.sealed_sealed]
    rfl
  · rw [exec_append_of_buf request (add_two_le_bufCap_of_le_six legal (by decide)), checksumBytes,
      checksum_readRequest]
    rfl

end Sys2Proof.Machine
end

section
/-! The frame validator's commands HDRLEN and VALIDATE (42_frame_validator.md R131 to R135): a frame by its body and its
last two bytes, the state each outcome leaves field by field, and the two corner cases of the length rule. -/

namespace Sys2Proof.Machine

/-! ## The bytes of a frame (R130, R132) -/

/-- A byte that exists reads the same when bytes are appended. -/
theorem getElem?_append_of_eq_some {m : List Byte} {i : Nat} {b : Byte} (reads : m[i]? = some b) (bs : List Byte) :
    (m ++ bs)[i]? = some b := by
  obtain ⟨below, -⟩ := List.getElem?_eq_some_iff.1 reads
  rw [List.getElem?_append_left below, reads]

theorem byteCount_of_getElem? {m : List Byte} {b : Byte} (third : m[2]? = some b) : byteCount m = b := by
  rw [byteCount, byteAt, List.getD_eq_getElem?_getD, third, Option.getD_some]

theorem expectedLen_eq_ofNat (b : Byte) : expectedLen b = BitVec.ofNat 9 (b.toNat + 5) := by
  rw [← expectedLen_toNat, BitVec.ofNat_toNat, BitVec.setWidth_eq]

/-- A halfword whose high byte is 0 is its low byte. -/
theorem halfOf_zero (l : Byte) : halfOf l 0 = l.setWidth 16 := by
  simp [halfOf]

section
variable (m : List Byte) (l h : Byte)

theorem byteAt_append_two_first : byteAt (m ++ [l, h]) ((m ++ [l, h]).length - 2) = l := by
  simp [byteAt]

theorem byteAt_append_two_second : byteAt (m ++ [l, h]) ((m ++ [l, h]).length - 1) = h := by
  simp [byteAt]

theorem receivedCrc_append_two : receivedCrc (m ++ [l, h]) = halfOf l h := by
  rw [receivedCrc, byteAt_append_two_first, byteAt_append_two_second]

theorem verdictOf_append_two (c : Half) :
    verdictOf (m ++ [l, h]) c = if l = lo c ∧ h = hi c then .matched else .mismatched := by
  rw [verdictOf, byteAt_append_two_first, byteAt_append_two_second]

theorem slice_append_two : slice (m ++ [l, h]) 0 ((m ++ [l, h]).length - 2) = m := by
  simp [slice]

end

/-! ## The state each outcome leaves -/

section
variable {s : State} {b : Byte}

/-- A state with the result groups cleared and the header of its buffer extracted, where byte 2 is `b` (R131, R132). -/
theorem State.extractHeader_cleared_eq (count : byteCount s.buf = b) :
    s.startCommand.clearResults.extractHeader = (s.bare .none).setHeader b (BitVec.ofNat 9 (b.toNat + 5)) := by
  have cleared : s.startCommand.clearResults = s.bare .none := rfl
  have count' : byteCount (s.bare .none).buf = b := count
  rw [cleared, State.extractHeader, count', expectedLen_eq_ofNat]

/-- Step 3 of `check_frame()` on a frame of body `m` and last bytes `l` and `h`. -/
theorem State.checkedFrame_eq {m : List Byte} {l h : Byte} (holds : s.buf = m ++ [l, h])
    (count : byteCount s.buf = b) :
    s.checkedFrame = ((s.bare .none).setHeader b (BitVec.ofNat 9 (b.toNat + 5))).setCheck (checksum m) (halfOf l h)
      (if l = lo (checksum m) ∧ h = hi (checksum m) then .matched else .mismatched) := by
  have body : slice s.buf 0 (s.len - 2) = m := by rw [s.len_eq, holds, slice_append_two]
  calc s.checkedFrame
      = s.startCommand.clearResults.extractHeader.setCheck (checksum (slice s.buf 0 (s.len - 2)))
          (receivedCrc s.buf) (verdictOf s.buf (checksum (slice s.buf 0 (s.len - 2)))) := rfl
    _ = _ := by
      rw [State.extractHeader_cleared_eq count, body, holds, receivedCrc_append_two, verdictOf_append_two]

theorem exec_hdrlen_of_short (short : s.len < 3) : exec .hdrlen s = .next (s.bare .shortFrame) := by
  rw [exec, execHdrlen, if_pos short]
  rfl

/-- Step 1 of `check_frame()` fails: no header is extracted (R132, D16). -/
theorem exec_of_tooShort {i : Instr} (frame : i = .validate ∨ i = .decode) (short : s.len < 5) :
    exec i s = .next (s.bare .shortFrame) := by
  obtain ⟨t, ran, effect⟩ := exec_effect i s
  cases effect with
  | tooShort => exact ran
  | incomplete | validateMatch | validateMismatch | decodeMatch | decodeStrict | decodeLenient => omega
  | _ => simp at frame

/-- Step 2 of `check_frame()` fails: the header is kept (R132). -/
theorem exec_of_incomplete {i : Instr} (frame : i = .validate ∨ i = .decode) (short : s.FrameIncomplete) :
    exec i s = .next (s.startCommand.clearResults.extractHeader.fail .shortFrame) := by
  obtain ⟨t, ran, effect⟩ := exec_effect i s
  cases effect with
  | incomplete => exact ran
  | tooShort | validateMatch | validateMismatch | decodeMatch | decodeStrict | decodeLenient => omega
  | _ => simp at frame

/-- Step 3 of `check_frame()` is reached, and VALIDATE records a mismatch under either policy (R133). -/
theorem exec_validate_of_complete (whole : s.FrameComplete) :
    exec .validate s = .next
      (if s.checkedFrame.verdict = .matched then s.checkedFrame else s.checkedFrame.warn .checksumMismatch) := by
  obtain ⟨t, ran, effect⟩ := exec_effect .validate s
  cases effect with
  | tooShort | incomplete => omega
  | validateMatch _ verdict => rw [if_pos verdict, ran]
  | validateMismatch _ verdict => rw [if_neg (by rw [verdict]; decide), ran]

end

/-! ## VALIDATE on a frame by its body and its last two bytes (R133, R135) -/

section
variable {s : State} {m : List Byte} {l h b : Byte}

theorem exec_validate_of_frame (holds : s.buf = m ++ [l, h]) (third : m[2]? = some b) (whole : b.toNat + 5 ≤ s.len) :
    exec .validate s = .next
      (if l = lo (checksum m) ∧ h = hi (checksum m) then
        ((s.bare .none).setHeader b (BitVec.ofNat 9 (b.toNat + 5))).setCheck (checksum m) (halfOf l h) .matched
      else
        ((s.bare .checksumMismatch).setHeader b (BitVec.ofNat 9 (b.toNat + 5))).setCheck (checksum m) (halfOf l h)
          .mismatched) := by
  have count : byteCount s.buf = b := by
    rw [holds]
    exact byteCount_of_getElem? (getElem?_append_of_eq_some third [l, h])
  rw [exec_validate_of_complete ⟨by omega, by rwa [count]⟩, State.checkedFrame_eq holds count]
  split <;> rfl

end

/-- Settles O37, outcome by outcome of the frame check. -/
theorem validateChecksTheFrame : Obligations.ValidateChecksTheFrame := by
  refine ⟨rfl, fun s short => exec_of_tooShort (.inl rfl) short, fun s b five third short => ?_,
    fun s m l h b holds third whole => ⟨fun matched => ?_, fun other => ?_⟩⟩
  · have count := byteCount_of_getElem? third
    rw [exec_of_incomplete (.inl rfl) ⟨five, by rwa [count]⟩, State.extractHeader_cleared_eq count]
    rfl
  · obtain ⟨low, high⟩ := matched
    rw [exec_validate_of_frame holds third whole, if_pos ⟨low, high⟩, low, high, halfOf_lo_hi]
    rfl
  · rw [exec_validate_of_frame holds third whole, if_neg (not_and_or.2 other)]
    rfl

/-- Settles O38: the code is read as a byte count that 5 bytes do not reach. -/
theorem exceptionResponsesAreShortFrames : Obligations.ExceptionResponsesAreShortFrames := by
  intro s address function code l h holds nonzero
  have length : s.len = 5 := congrArg List.length holds
  have count : byteCount s.buf = code := congrArg byteCount holds
  have positive : code.toNat ≠ 0 := fun zero => nonzero (BitVec.eq_of_toNat_eq zero)
  have short : s.FrameIncomplete := ⟨by omega, by rw [count]; omega⟩
  exact ⟨⟨_, exec_of_incomplete (.inl rfl) short, rfl, rfl, rfl⟩,
    ⟨_, exec_of_incomplete (.inr rfl) short, rfl, rfl, rfl⟩⟩

/-- The checksum of a frame without its last byte is its high checksum byte (R135). -/
theorem checksum_concat_lo (m : List Byte) : checksum (m ++ [lo (checksum m)]) = halfOf (hi (checksum m)) 0 := by
  rw [checksum_concat, crcStep_lo, halfOf_zero]

/-- Settles O39: the frame's high checksum byte and the extra byte are compared with the checksum of the rest, whose
high byte is 0. -/
theorem oneExtraByteMatchesOnlyIfZero : Obligations.OneExtraByteMatchesOnlyIfZero := by
  intro s m b x holds third declared
  have holds' : s.buf = (m ++ [lo (checksum m)]) ++ [hi (checksum m), x] := by
    rw [holds, List.append_assoc]
    rfl
  have whole : b.toNat + 5 ≤ s.len := by
    rw [s.len_eq, holds, List.length_append]
    exact Nat.le_succ_of_le declared
  have ran := exec_validate_of_frame holds' (getElem?_append_of_eq_some third [lo (checksum m)]) whole
  rw [checksum_concat_lo, lo_halfOf, hi_halfOf] at ran
  by_cases zero : x = 0
  · rw [if_pos ⟨rfl, zero⟩] at ran
    exact ⟨_, ran, halfOf_zero _, iff_of_true rfl zero, iff_of_false Verdict.noConfusion (not_not.2 zero)⟩
  · rw [if_neg fun ⟨_, equal⟩ => zero equal] at ran
    exact ⟨_, ran, halfOf_zero _, iff_of_false Verdict.noConfusion zero, iff_of_true rfl zero⟩

/-- Settles O36. -/
theorem hdrlenExtractsTheHeader : Obligations.HdrlenExtractsTheHeader := by
  refine ⟨rfl, rfl, fun s short => exec_hdrlen_of_short short, fun s b0 b1 b rest holds => ?_⟩
  have count : byteCount s.buf = b := congrArg byteCount holds
  have three : 3 ≤ s.len := by
    rw [s.len_eq, holds]
    simp
  rw [exec_hdrlen_of_header three, State.extractHeader_cleared_eq count]
  rfl

end Sys2Proof.Machine
end

section
/-! The decoder (43_decoder.md R150 to R158): the value of a payload's integers, what the filter and the trim keep, the
state DECODE leaves field by field, and the mismatch policy. -/

namespace Sys2Proof.Machine

/-! ## The integers of a payload (R150, R151) -/

/-- A byte put after a bit string is its low byte. -/
theorem toNat_append_byte {w : Nat} (x : BitVec w) (b : Byte) : (x ++ b).toNat = 2 ^ 8 * x.toNat + b.toNat := by
  rw [BitVec.toNat_append, ← Nat.shiftLeft_add_eq_or_of_lt b.isLt, Nat.shiftLeft_eq, Nat.mul_comm]

theorem decU16_toNat (p : List Byte) :
    (decU16 p).toNat = 2 ^ 8 * (p.getD 0 0).toNat + (p.getD 1 0).toNat :=
  calc (decU16 p).toNat = (decU16 [p.getD 0 0, p.getD 1 0]).toNat := rfl
    _ = _ := by rw [decU16_eq_append, toNat_append_byte]

theorem decU32_toNat (p : List Byte) :
    (decU32 p).toNat = 2 ^ 24 * (p.getD 0 0).toNat + 2 ^ 16 * (p.getD 1 0).toNat + 2 ^ 8 * (p.getD 2 0).toNat +
      (p.getD 3 0).toNat :=
  calc (decU32 p).toNat = (decU32 [p.getD 0 0, p.getD 1 0, p.getD 2 0, p.getD 3 0]).toNat := rfl
    _ = _ := by
      rw [decU32_eq_append, toNat_append_byte, toNat_append_byte, toNat_append_byte]
      omega

/-- Settles O40. -/
theorem payloadIntegersAreBigEndian : Obligations.PayloadIntegersAreBigEndian :=
  ⟨fun a b => decU16_toNat [a, b], fun a b c d => decU32_toNat [a, b, c, d]⟩

/-! ## The filter (R152) -/

theorem mem_asciiFilter (p : List Byte) (b : Byte) : b ∈ asciiFilter p ↔ b ∈ p ∧ b.toNat < 0x80 := by
  simp [asciiFilter, BitVec.lt_def]

theorem asciiFilter_append (p q : List Byte) : asciiFilter (p ++ q) = asciiFilter p ++ asciiFilter q :=
  List.filter_append p q

theorem asciiFilter_singleton_of_high (x : Byte) (high : 0x80 ≤ x.toNat) : asciiFilter [x] = [] := by
  simpa [asciiFilter, BitVec.lt_def] using high

/-- Settles O41. -/
theorem asciiFilterDropsHighBytes : Obligations.AsciiFilterDropsHighBytes := by
  refine fun p => ⟨List.filter_sublist, fun b kept => ((mem_asciiFilter p b).1 kept).2, fun b low => ?_⟩
  exact List.count_filter (by simpa [BitVec.lt_def] using low)

/-! ## The trim (R153, R154) -/

theorem isTrimmed_iff_mem (b : Byte) : isTrimmed b = true ↔ b ∈ [0x00#8, 0x20#8, 0x0D#8, 0x0A#8] := by
  simp [isTrimmed]

/-- The trim is the same set of bytes dropped from the front, then from the back. -/
theorem trim_eq (s : List Byte) : trim s = (s.dropWhile isTrimmed).rdropWhile isTrimmed := rfl

/-- What the trim removes is a run of trimmed bytes on either side. -/
theorem takeWhile_append_trim_append_rtakeWhile (s : List Byte) :
    s.takeWhile isTrimmed ++ trim s ++ (s.dropWhile isTrimmed).rtakeWhile isTrimmed = s := by
  rw [trim_eq, List.append_assoc, List.rdropWhile_append_rtakeWhile, List.takeWhile_append_dropWhile]

/-- The first byte left is the first byte after the front run. -/
theorem isTrimmed_of_head?_trim {s : List Byte} {x : Byte} (first : (trim s).head? = some x) :
    isTrimmed x = false := by
  obtain ⟨rest, parts⟩ := List.rdropWhile_prefix isTrimmed (s.dropWhile isTrimmed)
  have first' : (s.dropWhile isTrimmed).head? = some x := by
    rw [← parts, List.head?_append, ← trim_eq, first, Option.some_or]
  have stopped := List.head?_dropWhile_not isTrimmed s
  rwa [first'] at stopped

/-- The last byte left is the last byte before the back run. -/
theorem isTrimmed_of_getLast?_trim {s : List Byte} {x : Byte} (last : (trim s).getLast? = some x) :
    isTrimmed x = false := by
  have stopped := List.head?_dropWhile_not isTrimmed (s.dropWhile isTrimmed).reverse
  rw [trim, List.getLast?_reverse] at last
  rwa [last] at stopped

theorem trim_eq_nil_of_forall {s : List Byte} (all : ∀ x ∈ s, isTrimmed x = true) : trim s = [] := by
  rw [trim_eq, List.dropWhile_eq_nil_iff.2 all, List.rdropWhile_nil]

theorem not_mem_of_head?_trim {s : List Byte} {x : Byte} (first : (trim s).head? = some x) :
    x ∉ [0x00#8, 0x20#8, 0x0D#8, 0x0A#8] := by
  rw [← isTrimmed_iff_mem, isTrimmed_of_head?_trim first]
  exact Bool.false_ne_true

theorem not_mem_of_getLast?_trim {s : List Byte} {x : Byte} (last : (trim s).getLast? = some x) :
    x ∉ [0x00#8, 0x20#8, 0x0D#8, 0x0A#8] := by
  rw [← isTrimmed_iff_mem, isTrimmed_of_getLast?_trim last]
  exact Bool.false_ne_true

/-- Settles O42. -/
theorem trimRemovesTheEndsOnly : Obligations.TrimRemovesTheEndsOnly := by
  refine fun s => ⟨⟨_, _, (takeWhile_append_trim_append_rtakeWhile s).symm, fun x removed => ?_⟩,
    fun x => not_mem_of_head?_trim, fun x => not_mem_of_getLast?_trim,
    fun all => trim_eq_nil_of_forall fun x mem => (isTrimmed_iff_mem x).2 (all x mem)⟩
  rw [← isTrimmed_iff_mem]
  obtain front | back := List.mem_append.1 removed
  · exact List.mem_takeWhile_imp front
  · exact List.mem_rtakeWhile_imp back

theorem trim_cons_of_isTrimmed {x : Byte} (trimmed : isTrimmed x = true) (s : List Byte) : trim (x :: s) = trim s := by
  rw [trim_eq, List.dropWhile_cons_of_pos trimmed, trim_eq]

theorem trim_concat_of_isTrimmed {x : Byte} (trimmed : isTrimmed x = true) (s : List Byte) :
    trim (s ++ [x]) = trim s := by
  rw [trim_eq, List.dropWhile_append, trim_eq]
  split
  case isTrue allFront =>
    rw [List.isEmpty_iff.1 allFront, List.dropWhile_cons_of_pos trimmed, List.dropWhile_nil]
  case isFalse => exact List.rdropWhile_concat_pos isTrimmed _ x trimmed

theorem mem_of_mem_trim {s : List Byte} {x : Byte} (mem : x ∈ trim s) : x ∈ s := by
  rw [← takeWhile_append_trim_append_rtakeWhile s]
  exact List.mem_append_left _ (List.mem_append_right _ mem)

/-- Settles O43: a byte at or above 0x80 is gone before the trim, which then reaches the space behind it. -/
theorem asciiTextOfEightBytes : Obligations.AsciiTextOfEightBytes := by
  refine ⟨fun p eight => ⟨rfl, (ascii8Trim_length_le p).trans eight.le, fun x mem => ?_,
    fun x => not_mem_of_head?_trim, fun x => not_mem_of_getLast?_trim⟩, fun x q high => ?_⟩
  · exact ((mem_asciiFilter p x).1 (mem_of_mem_trim mem)).2
  · have gone := asciiFilter_singleton_of_high x high
    have space : asciiFilter [0x20#8] = [0x20#8] := by decide
    constructor
    · calc trim (asciiFilter ([x] ++ ([0x20#8] ++ q)))
          = trim (0x20#8 :: asciiFilter q) := by
            rw [asciiFilter_append, asciiFilter_append, gone, space, List.nil_append, List.singleton_append]
        _ = trim (asciiFilter q) := trim_cons_of_isTrimmed (by decide) _
    · calc trim (asciiFilter (q ++ ([0x20#8] ++ [x])))
          = trim (asciiFilter q ++ [0x20#8]) := by
            rw [asciiFilter_append, asciiFilter_append, gone, space, List.append_nil]
        _ = trim (asciiFilter q) := trim_concat_of_isTrimmed (by decide) _

/-! ## DECODE on a complete frame (R155) -/

section
variable {s : State} {m : List Byte} {l h b : Byte}

/-- All of `STR` after a text is put where it was cleared before. -/
theorem State.str_setString_eq (s : State) (t : List Byte) (cleared : s.str = Vector.replicate 8 0) :
    (s.setString t).str = Vector.ofFn fun i => t.getD i.val 0 := by
  have zero : ∀ i : Fin 8, s.str[i] = 0 := by simp [cleared]
  refine Vector.ext fun i below => ?_
  rw [Vector.getElem_ofFn]
  exact s.str_setString t zero ⟨i, below⟩

/-- The value registers by byte count, where `STR` was cleared before and the payload is `p`. -/
theorem State.decodePayload_eq {p : List Byte} (count : s.bcnt = b) (payload : s.payload = p)
    (cleared : s.str = Vector.replicate 8 0) :
    s.decodePayload =
      if b = 2 then
        { s with tag := .uint16, value := BitVec.ofNat 32 (2 ^ 8 * (p.getD 0 0).toNat + (p.getD 1 0).toNat) }
      else if b = 4 then
        { s with
          tag := .uint32
          value := BitVec.ofNat 32 (2 ^ 24 * (p.getD 0 0).toNat + 2 ^ 16 * (p.getD 1 0).toNat +
            2 ^ 8 * (p.getD 2 0).toNat + (p.getD 3 0).toNat) }
      else if b = 8 then
        { s with
          tag := .ascii
          strlen := BitVec.ofNat 4 (ascii8Trim p).length
          str := Vector.ofFn fun i => (ascii8Trim p).getD i.val 0 }
      else { s with tag := .raw } := by
  subst count
  obtain ⟨n, e⟩ | ⟨n, e⟩ | ⟨n, e⟩ | ⟨n2, n4, n8, e⟩ := s.decodePayload_cases <;> rw [e]
  · rw [if_pos n, payload, ← decU16_toNat, BitVec.ofNat_toNat]
    rfl
  · rw [if_neg (by rw [n]; decide), if_pos n, payload, ← decU32_toNat, BitVec.ofNat_toNat, BitVec.setWidth_eq]
    rfl
  · rw [if_neg (by rw [n]; decide), if_neg (by rw [n]; decide), if_pos n, payload,
      ← (s.setTag .ascii).str_setString_eq (ascii8Trim p) cleared]
    rfl
  · rw [if_neg n2, if_neg n4, if_neg n8]
    rfl

/-- A complete frame that is checked, with the code its verdict gives (R132, R155): what DECODE holds before it looks at
the payload. -/
def State.judgedFrame (s : State) : State :=
  s.checkedFrame.setErr (if s.checkedFrame.verdict = .matched then .none else .checksumMismatch)

/-- DECODE decodes the payload of a complete frame unless a mismatch meets the strict policy (R158). -/
theorem exec_decode_of_complete (whole : s.FrameComplete) :
    exec .decode s = .next
      (if s.checkedFrame.verdict ≠ .matched ∧ s.strict = true then s.judgedFrame
      else s.judgedFrame.decodePayload) := by
  obtain ⟨t, ran, effect⟩ := exec_effect .decode s
  rw [ran, State.judgedFrame]
  cases effect with
  | tooShort | incomplete => omega
  | decodeMatch _ verdict =>
    rw [if_neg fun ⟨other, _⟩ => other verdict, if_pos verdict]
    rfl
  | decodeStrict _ verdict policy =>
    have other : s.checkedFrame.verdict ≠ .matched := by rw [verdict]; decide
    rw [if_pos ⟨other, policy⟩, if_neg other]
    rfl
  | decodeLenient _ verdict policy =>
    have other : s.checkedFrame.verdict ≠ .matched := by rw [verdict]; decide
    rw [if_neg (by simp [policy]), if_neg other]
    rfl

theorem byteCount_of_frame (holds : s.buf = m ++ [l, h]) (third : m[2]? = some b) : byteCount s.buf = b := by
  rw [holds]
  exact byteCount_of_getElem? (getElem?_append_of_eq_some third [l, h])

theorem checkedFrame_verdict_of_frame (holds : s.buf = m ++ [l, h]) :
    s.checkedFrame.verdict = .matched ↔ l = lo (checksum m) ∧ h = hi (checksum m) := by
  rw [State.checkedFrame_verdict, s.len_eq, holds, slice_append_two, verdictOf_eq_matched_iff,
    byteAt_append_two_first, byteAt_append_two_second]

/-- The judged frame by its body and its last two bytes. -/
theorem State.judgedFrame_eq (holds : s.buf = m ++ [l, h]) (count : byteCount s.buf = b) :
    s.judgedFrame =
      { s.bare (if l = lo (checksum m) ∧ h = hi (checksum m) then .none else .checksumMismatch) with
        hdrv := true, bcnt := b, explen := BitVec.ofNat 9 (b.toNat + 5), calcCrc := checksum m
        rxCrc := l.setWidth 16 ||| (h.setWidth 16 <<< 8)
        verdict := if l = lo (checksum m) ∧ h = hi (checksum m) then .matched else .mismatched } := by
  simp only [State.judgedFrame, checkedFrame_verdict_of_frame holds]
  rw [State.checkedFrame_eq holds count]
  rfl

end

/-- Settles O44, outcome by outcome of the frame check. -/
theorem decodeDecodesTheCheckedFrame : Obligations.DecodeDecodesTheCheckedFrame := by
  refine ⟨rfl, fun s short => exec_of_tooShort (.inr rfl) short, fun s b five third short => ?_,
    fun s u m p l h b holds third whole payload judged => ?_⟩
  · have count := byteCount_of_getElem? third
    rw [exec_of_incomplete (.inr rfl) ⟨five, by rwa [count]⟩, State.extractHeader_cleared_eq count]
    rfl
  · have count := byteCount_of_frame holds third
    rw [← State.judgedFrame_eq holds count] at judged
    have bcnt : u.bcnt = b := judged ▸ count
    have bytes : u.payload = p := by
      rw [State.payload_eq, bcnt, payload, judged]
      rfl
    have cleared : u.str = Vector.replicate 8 0 := by
      rw [judged]
      rfl
    rw [exec_decode_of_complete ⟨by omega, by rwa [count]⟩, ← judged, State.decodePayload_eq bcnt bytes cleared]
    simp only [ne_eq, checkedFrame_verdict_of_frame holds]

/-! ## The mismatch policy (R158) -/

/-- The variant names the byte count (R155, R156). -/
theorem tagOf_eq_iff (b : Byte) :
    (tagOf b = .uint16 ↔ b = 2) ∧ (tagOf b = .uint32 ↔ b = 4) ∧ (tagOf b = .ascii ↔ b = 8) := by
  obtain ⟨rfl, -⟩ | ⟨rfl, -⟩ | ⟨rfl, -⟩ | ⟨n2, n4, n8, e⟩ := tagOf_cases b
  · decide
  · decide
  · decide
  · rw [e]
    exact ⟨iff_of_false Tag.noConfusion n2, iff_of_false Tag.noConfusion n4, iff_of_false Tag.noConfusion n8⟩

/-- Settles O45, outcome by outcome of DECODE. -/
theorem mismatchPolicyOutcomes : Obligations.MismatchPolicyOutcomes := by
  refine fun s => completes_of_effect fun t effect => ?_
  obtain ⟨-, strict, -⟩ := effect.frame
  refine ⟨strict, ?_⟩
  cases effect with
  | tooShort | incomplete => simp
  | decodeMatch _ verdict => simp [-State.checkedFrame_verdict, verdict, tagOf_ne_absent, tagOf_eq_iff]
  | decodeStrict _ verdict policy => simp [-State.checkedFrame_verdict, verdict, policy]
  | decodeLenient _ verdict policy =>
    simp [-State.checkedFrame_verdict, verdict, policy, tagOf_ne_absent, tagOf_eq_iff]

end Sys2Proof.Machine
end

section
/-! The exact cause of every error that a legal command records (10_state.md R171, R172), and what VALIDATE and DECODE
record beside it: the header and check groups of the checked frame, and a code that follows their verdict. -/

namespace Sys2Proof.Machine

/-! ## Overflows and the short header -/

theorem exec_push_cause (s : State) (b : Byte) : Completes (exec (.push b) s) fun t =>
    t.err = (if s.len = s.params.bufCap then .bufferOverflow else .none) ∧
      (s.len = s.params.bufCap → t = s.setErr .bufferOverflow) := by
  refine completes_of_effect fun t effect => ?_
  cases effect with
  | push _ room => exact ⟨(if_neg room).symm, fun full => absurd full room⟩
  | pushFull _ full => exact ⟨(if_pos full).symm, fun _ => rfl⟩
  | tooShort _ frame | incomplete _ frame => simp at frame

theorem exec_append_cause (s : State) : Completes (exec .append s) fun t =>
    t.err = (if s.params.bufCap < s.len + 2 then .bufferOverflow else .none) ∧
      (s.params.bufCap < s.len + 2 → t = s.setErr .bufferOverflow) := by
  refine completes_of_effect fun t effect => ?_
  cases effect with
  | append room => exact ⟨(if_neg (Nat.not_lt.2 room)).symm, fun full => absurd room (Nat.not_le.2 full)⟩
  | appendFull full => exact ⟨(if_pos full).symm, fun _ => rfl⟩
  | tooShort _ frame | incomplete _ frame => simp at frame

theorem exec_hdrlen_cause (s : State) : Completes (exec .hdrlen s) fun t =>
    t.err = (if s.len < 3 then .shortFrame else .none) ∧ (s.len < 3 → t.hdrv = false) := by
  by_cases short : s.len < 3
  · exact ⟨_, exec_hdrlen_of_short short, (if_pos short).symm, fun _ => rfl⟩
  · exact ⟨_, exec_hdrlen_of_header (Nat.not_lt.1 short), (if_neg short).symm, fun h => absurd h short⟩

/-! ## VALIDATE and DECODE on a complete frame (R132, R133, R155) -/

theorem byteAt_of_getElem? {m : List Byte} {i : Nat} {b : Byte} (reads : m[i]? = some b) : byteAt m i = b := by
  rw [byteAt, List.getD_eq_getElem?_getD, reads, Option.getD_some]

@[simp] theorem State.checkedFrame_explen (s : State) : s.checkedFrame.explen = expectedLen (byteCount s.buf) := rfl
@[simp] theorem State.checkedFrame_calcCrc (s : State) :
    s.checkedFrame.calcCrc = checksum (slice s.buf 0 (s.len - 2)) := rfl
@[simp] theorem State.checkedFrame_rxCrc (s : State) : s.checkedFrame.rxCrc = receivedCrc s.buf := rfl

/-- The header and check groups of `t` are those of the frame in `s`, checked, and its code is the verdict's. -/
structure State.JudgedAs (t s : State) : Prop where
  hdrv : t.hdrv = s.checkedFrame.hdrv
  bcnt : t.bcnt = s.checkedFrame.bcnt
  explen : t.explen = s.checkedFrame.explen
  calcCrc : t.calcCrc = s.checkedFrame.calcCrc
  rxCrc : t.rxCrc = s.checkedFrame.rxCrc
  verdict : t.verdict = s.checkedFrame.verdict
  code : (t.verdict = .matched ∧ t.err = .none) ∨ (t.verdict = .mismatched ∧ t.err = .checksumMismatch)

/-- Decoding the payload writes the value group alone, so it keeps the judgement. -/
theorem State.JudgedAs.decodePayload {s t : State} (judged : t.JudgedAs s) : t.decodePayload.JudgedAs s where
  hdrv := t.decodePayload_hdrv.trans judged.hdrv
  bcnt := t.decodePayload_bcnt.trans judged.bcnt
  explen := t.decodePayload_explen.trans judged.explen
  calcCrc := t.decodePayload_calcCrc.trans judged.calcCrc
  rxCrc := t.decodePayload_rxCrc.trans judged.rxCrc
  verdict := t.decodePayload_verdict.trans judged.verdict
  code := by simpa only [State.decodePayload_verdict, State.decodePayload_err] using judged.code

/-- Every outcome of the two commands on a complete frame is the checked frame with its verdict's code, or that with the
payload decoded. -/
theorem CommandEffect.judgedAs {i : Instr} {s t : State} (effect : CommandEffect s i t)
    (frame : i = .validate ∨ i = .decode) (whole : s.FrameComplete) : t.JudgedAs s := by
  have agrees (verdict : s.checkedFrame.verdict = .matched) : s.checkedFrame.JudgedAs s :=
    ⟨rfl, rfl, rfl, rfl, rfl, rfl, .inl ⟨verdict, rfl⟩⟩
  have differs (verdict : s.checkedFrame.verdict = .mismatched) :
      (s.checkedFrame.setErr .checksumMismatch).JudgedAs s :=
    ⟨rfl, rfl, rfl, rfl, rfl, rfl, .inr ⟨verdict, rfl⟩⟩
  cases effect with
  | tooShort | incomplete => omega
  | validateMatch _ verdict => exact agrees verdict
  | decodeMatch _ verdict => exact (agrees verdict).decodePayload
  | validateMismatch _ verdict | decodeStrict _ verdict => exact differs verdict
  | decodeLenient _ verdict => exact (differs verdict).decodePayload
  | _ => simp at frame

/-- R158: DECODE leaves no value on a mismatch exactly under the strict policy. -/
theorem tag_eq_absent_iff_of_mismatched {s t : State} (ran : exec .decode s = .next t)
    (mismatched : t.verdict = .mismatched) : t.tag = .absent ↔ s.strict = true := by
  obtain ⟨u, decoded, -, -, -, -, absent, -⟩ := mismatchPolicyOutcomes s
  cases decoded.symm.trans ran
  simpa [mismatched] using absent

section
variable {s t : State} {l h : Byte}

/-- The verdict is the comparison of the two checksums that are recorded with it. -/
theorem State.JudgedAs.matched_iff_rxCrc_eq (judged : t.JudgedAs s) : t.verdict = .matched ↔ t.rxCrc = t.calcCrc := by
  rw [judged.verdict, judged.rxCrc, judged.calcCrc, State.checkedFrame_verdict, verdictOf_eq_matched_iff_received]
  exact eq_comm

/-- The verdict by the buffer's last two bytes. -/
theorem State.JudgedAs.matched_iff_last_bytes (judged : t.JudgedAs s) (low : s.buf[s.len - 2]? = some l)
    (high : s.buf[s.len - 1]? = some h) : t.verdict = .matched ↔ l = lo t.calcCrc ∧ h = hi t.calcCrc := by
  rw [judged.verdict, judged.calcCrc, State.checkedFrame_verdict, verdictOf_eq_matched_iff, ← s.len_eq,
    byteAt_of_getElem? low, byteAt_of_getElem? high]
  rfl

theorem State.JudgedAs.rxCrc_eq (judged : t.JudgedAs s) (low : s.buf[s.len - 2]? = some l)
    (high : s.buf[s.len - 1]? = some h) : t.rxCrc = l.setWidth 16 ||| (h.setWidth 16 <<< 8) := by
  rw [judged.rxCrc, State.checkedFrame_rxCrc, receivedCrc, ← s.len_eq, byteAt_of_getElem? low,
    byteAt_of_getElem? high, halfOf]

theorem State.JudgedAs.calcCrc_eq (judged : t.JudgedAs s) : t.calcCrc = checksum (s.buf.take (s.len - 2)) := by
  rw [judged.calcCrc, State.checkedFrame_calcCrc, slice_from_zero]

/-- The code is CHECKSUM_MISMATCH exactly where the verdict is not MATCH. -/
theorem State.JudgedAs.err_eq_mismatch_iff (judged : t.JudgedAs s) :
    t.err = .checksumMismatch ↔ t.verdict ≠ .matched := by
  obtain ⟨verdict, err⟩ | ⟨verdict, err⟩ := judged.code <;> simp [verdict, err]

end

/-! ## The causes, command by command -/

/-- What VALIDATE and DECODE record, by the three steps of `check_frame()`. -/
theorem exec_frame_cause {i : Instr} (s : State) (frame : i = .validate ∨ i = .decode) :
    Completes (exec i s) fun t =>
      (s.len < 5 → t.err = .shortFrame ∧ t.hdrv = false ∧ t.verdict = .notChecked ∧ t.tag = .absent) ∧
      (s.FrameIncomplete → t.hdrv = true ∧ t.bcnt = byteCount s.buf ∧ t.explen = expectedLen (byteCount s.buf) ∧
        t.err = .shortFrame ∧ t.verdict = .notChecked ∧ t.tag = .absent) ∧
      (s.FrameComplete → t.JudgedAs s) := by
  by_cases five : s.len < 5
  · exact ⟨_, exec_of_tooShort frame five, fun _ => ⟨rfl, rfl, rfl, rfl⟩, by omega, by omega⟩
  by_cases short : s.FrameIncomplete
  · exact ⟨_, exec_of_incomplete frame short, by omega, fun _ => ⟨rfl, rfl, rfl, rfl, rfl, rfl⟩, by omega⟩
  · exact completes_of_effect fun t effect => ⟨by omega, fun h => absurd h short, effect.judgedAs frame⟩

/-- Settles O51, command by command; VALIDATE and DECODE by the length of the frame, then by its verdict. -/
theorem errorCausesByCommand : Obligations.ErrorCausesByCommand := by
  refine fun s => ⟨exec_push_cause s, exec_append_cause s, exec_hdrlen_cause s, fun i frame => ?_, fun i others => ?_⟩
  · obtain ⟨t, ran, tooShort, incomplete, complete⟩ := exec_frame_cause s frame
    refine ⟨t, ran, tooShort, fun five b third => ?_⟩
    obtain rfl : byteCount s.buf = b := byteCount_of_getElem? third
    have explen_toNat := expectedLen_toNat (byteCount s.buf)
    by_cases short : s.len < (byteCount s.buf).toNat + 5
    · obtain ⟨hdrv, bcnt, explen, err, verdict, tag⟩ := incomplete ⟨five, short⟩
      exact ⟨hdrv, bcnt, explen ▸ explen_toNat, fun _ => ⟨err, verdict, tag⟩,
        fun whole => absurd short (Nat.not_lt.2 whole)⟩
    · have judged : t.JudgedAs s := complete ⟨five, Nat.not_lt.1 short⟩
      refine ⟨judged.hdrv, judged.bcnt, judged.explen ▸ explen_toNat, fun incomplete => absurd incomplete short,
        fun _ l h low high => ⟨judged.calcCrc_eq, judged.rxCrc_eq low high, ?_, ?_⟩⟩
      · rw [judged.err_eq_mismatch_iff, ne_eq, judged.matched_iff_last_bytes low high, not_and_or]
      · obtain ⟨verdict, err⟩ | ⟨verdict, err⟩ := judged.code
        · exact .inl ⟨err, verdict, judged.matched_iff_rxCrc_eq.1 verdict⟩
        · refine .inr ⟨err, verdict, ?_, ?_⟩
          · rw [ne_eq, ← judged.matched_iff_rxCrc_eq, verdict]
            exact Verdict.noConfusion
          · rintro rfl
            exact tag_eq_absent_iff_of_mismatched ran verdict
  · obtain rfl | rfl | rfl | ⟨b, rfl⟩ := others <;> exact ⟨_, rfl, rfl⟩

end Sys2Proof.Machine
end

section
/-! The policy and the results between commands (70_reset_and_hazards.md): what a `CTRL` write changes for the next
command (R198), and which commands leave the recorded results as they are (R194). -/

namespace Sys2Proof.Machine

/-! ## The policy (R198) -/

/-- R133: VALIDATE does the same under either policy, in each case of the frame check. -/
theorem exec_validate_setStrict (s : State) (x : Bool) :
    ∃ t, exec .validate s = .next t ∧ exec .validate (s.setStrict x) = .next (t.setStrict x) := by
  by_cases five : s.len < 5
  · exact ⟨_, exec_of_tooShort (.inl rfl) five, exec_of_tooShort (s := s.setStrict x) (.inl rfl) five⟩
  by_cases short : s.FrameIncomplete
  · exact ⟨_, exec_of_incomplete (.inl rfl) short, exec_of_incomplete (s := s.setStrict x) (.inl rfl) short⟩
  · have whole : s.FrameComplete := by omega
    refine ⟨_, exec_validate_of_complete whole, ?_⟩
    rw [apply_ite (State.setStrict · x)]
    exact exec_validate_of_complete (s := s.setStrict x) whole

/-- A command written right after a `CTRL` write runs under the policy of the word written. -/
theorem performAll_ctrlWrite_command (s : State) (v : Word) (i : Instr) (legal : s.params.Ok) :
    performAll [memWrite s.params 0x004 v, commandWrite s.params i] s = exec i (s.writeCtrl v) := by
  have next := performAll_commandWrites [i] (s.writeCtrl v) legal
  rw [execAll_singleton] at next
  rw [performAll, perform_ctrlWrite s v legal]
  exact next

/-- Settles O47. -/
theorem policyIsReadByDecodeAlone : Obligations.PolicyIsReadByDecodeAlone :=
  ⟨fun s v legal => ⟨performAll_ctrlWrite_command s v .decode legal,
      s.writeCtrl v, perform_ctrlWrite s v legal, rfl, rfl⟩,
    exec_validate_setStrict⟩

/-! ## Snapshots (R194) -/

/-- The commands that R194 names as leaving the results alone. -/
abbrev LeavesResults (i : Instr) : Prop :=
  (∃ b, i = .push b) ∨ i = .append ∨ i = .crcInit ∨ (∃ b, i = .crcByte b) ∨ i = .crcBuf

/-- These commands write `ERR`, `CRC` and the buffer at most. -/
theorem CommandEffect.eq_of_leavesResults {i : Instr} {s t : State} (h : CommandEffect s i t)
    (leaves : LeavesResults i) : t = { s with err := t.err, crc := t.crc, buf := t.buf } := by
  cases h with
  | push | pushFull | crcInit | crcByte | crcBuf | append | appendFull => rfl
  | tooShort i frame | incomplete i frame => obtain rfl | rfl := frame <;> simp [LeavesResults] at leaves
  | _ => simp [LeavesResults] at leaves

/-- The buffer only grows, at its end, until a CLEAR (10_state.md R23). -/
theorem CommandEffect.buffer_prefix {i : Instr} {s t : State} (h : CommandEffect s i t) (notClear : i ≠ .clear) :
    s.buf <+: t.buf := by
  obtain ⟨clear, -⟩ | ⟨-, same⟩ | ⟨bs, -, -, -, grown⟩ := h.buffer
  · exact absurd clear notClear
  · rw [same]
  · exact ⟨bs, grown.symm⟩

/-- A payload that lies in the buffer stays as it is while the buffer grows at its end. -/
theorem State.payload_eq_of_prefix {s t : State} (grown : s.buf <+: t.buf) (count : t.bcnt = s.bcnt)
    (inside : 3 + s.bcnt.toNat ≤ s.len) : t.payload = s.payload := by
  obtain ⟨bs, grown⟩ := grown
  rw [State.payload, State.payload, slice, slice, count, ← grown, List.take_append_of_le_length inside]

/-- Settles O52: what these commands write is no result, and the payload lies in the part of the buffer they keep. -/
theorem resultsAreSnapshots : Obligations.ResultsAreSnapshots := by
  refine ⟨fun i s leaves => completes_of_effect fun t effect => ?_, perform_illegalWord, perform_ctrlWrite,
    fun s => ⟨_, rfl, rfl⟩⟩
  have notClear : i ≠ .clear := by
    rintro rfl
    simp at leaves
  have grown := effect.buffer_prefix notClear
  have written := effect.eq_of_leavesResults leaves
  have count : t.bcnt = s.bcnt := by rw [written]
  refine ⟨?_, ?_, ?_, State.payload_eq_of_prefix grown count⟩ <;> rw [written] <;> simp

end Sys2Proof.Machine
end
